-- ==== Sys2Proof/Word.lean ====
section
/-! DEFINITION. The machine's words and the index types of its register classes (spec/01 R13, spec/08 R180). -/
namespace Sys2Proof

/-- A scalar register, a mask register, a 64-bit instruction or header (R54, R178). -/
abbrev Word := BitVec 64
/-- One lane of a vector or bracket register (R54). -/
abbrev Lane := BitVec 32
/-- One byte of memory, of a scratchpad or of a tile. -/
abbrev Byte := BitVec 8
/-- A 16-bit code parcel (R172). -/
abbrev Parcel := BitVec 16

/-- v0 to v255. -/
abbrev VIdx := BitVec 8
/-- s0 to s127. -/
abbrev SIdx := BitVec 7
/-- m0 to m15; m0 is exec. -/
abbrev MIdx := BitVec 4
/-- b0 to b3. -/
abbrev BIdx := BitVec 2
/-- sd0 to sd7. -/
abbrev DIdx := BitVec 3
/-- The H field of the T format: s0 to s63 (R180). -/
abbrev HIdx := BitVec 6

end Sys2Proof
end

