-- ==== Sys2Proof/Syntax.lean ====
section
/-! DEFINITION. The instructions and happenings of spec/opcode_table.json as data: one constructor per row. Operand fields have the widths of R180; modifiers are names. A row that the table lists as a happening (R425) carries no operand: what it concerns stands in State (State.arg). -/
namespace Sys2Proof

/-- The bits every 64-bit instruction has (R178): last-use flags (bit 2 is position A, bit 0 position C) and the safe-point bit. -/
structure Ctl where
  lu : BitVec 3
  safe : Bool
  deriving DecidableEq, Repr

/-- A tile operand (R82): a relative name, or a scalar register that holds one. -/
inductive TileRef where
  | name (n : BitVec 12)
  | reg (s : SIdx)
  deriving DecidableEq, Repr

/-- Saturation of VADD and VSUB (R220). -/
inductive Sat where
  | wrap | sat | satu
  deriving DecidableEq, Repr

/-- The integer predicates of R194. -/
inductive Pred where
  | eq | ne | lt | le | gt | ge | ltu | leu | gtu | geu
  deriving DecidableEq, Repr

/-- The float predicates of R225. -/
inductive FPred where
  | eq | ne | lt | le | gt | ge | un | ord
  deriving DecidableEq, Repr

/-- The rounding field of R105. -/
inductive Rnd where
  | dflt | rn | rz | ru | rd
  deriving DecidableEq, Repr

/-- VMOV's operand classes (R222). -/
inductive VMovForm where
  | vv (d a : VIdx)
  | bv (d : BIdx) (a : VIdx)
  | vb (d : VIdx) (a : BIdx)
  deriving DecidableEq, Repr

/-- The element types of CVT (R231). -/
inductive CvtTy where
  | f32 | f16 | bf16 | e4m3 | e5m2 | i8 | i16 | i32 | n8 | n16 | n32
  | pi (k : BitVec 4)
  deriving DecidableEq, Repr

/-- The element types of PACK and UNPACK (R232). -/
inductive PackTy where
  | f16 | bf16 | e4m3 | e5m2 | i8 | i16 | n8 | n16
  deriving DecidableEq, Repr

/-- The subgroup width code of R234. -/
inductive GCode where
  | full | g2 | g4 | g8 | g16 | g32 | g64
  deriving DecidableEq, Repr

/-- The index mode of R234. -/
inductive IdxMode where
  | wrap | clamp | own
  deriving DecidableEq, Repr

/-- A lane number given by an immediate or by a scalar (R235, R238). -/
inductive LaneSel where
  | imm (n : BitVec 6)
  | reg (s : SIdx)
  deriving DecidableEq, Repr

/-- The descriptor field SPOS reads (R239). -/
inductive SposField where
  | pos | cnt | base | str
  deriving DecidableEq, Repr

/-- An operand of SCACC that is a vector or a scalar (R229). -/
inductive VOrS where
  | v (r : VIdx)
  | s (r : SIdx)
  deriving DecidableEq, Repr

/-- SCACC's A operand (R229, R230). -/
inductive ScaccA where
  | v (r : VIdx)
  | tile (s : SIdx) (row : BitVec 4)
  deriving DecidableEq, Repr

/-- Access widths (R182). -/
inductive Wid where
  | n8 | i8 | n16 | i16 | w32 | w64
  deriving DecidableEq, Repr

/-- Placement hints (R182); timing only. -/
inductive SC where
  | none | na | nt | ro
  deriving DecidableEq, Repr

/-- A vector memory operand (R182): base scalar, per-lane index, byte offset, space, hint, lane mask. -/
structure MemV where
  base : SIdx
  idx : Option VIdx
  off : BitVec 12
  sp : Bool
  sc : SC
  ms : MIdx
  deriving DecidableEq, Repr

/-- A scalar memory operand (R243). -/
structure MemS where
  base : SIdx
  off : BitVec 12
  sp : Bool
  sc : SC
  deriving DecidableEq, Repr

/-- The scope of a fence (R182). -/
inductive Scope where
  | b | g | d
  deriving DecidableEq, Repr

/-- The kind TDEF and TNEW give a name (R262). -/
inductive TKind where
  | w32 | w16 | w8
  | pi (k : BitVec 4)
  deriving DecidableEq, Repr

/-- TLOAD's form (R265). -/
inductive TLoadForm where
  | row
  | plane (m j : BitVec 4)
  deriving DecidableEq, Repr

/-- Engine classes (R151). -/
inductive EngClass where
  | mx | dm | cv | cl
  deriving DecidableEq, Repr

/-- B formats of MXLOADB (R269). -/
inductive BFmt where
  | e4m3 | e5m2 | bf16 | f16 | i8 | pi | i16
  deriving DecidableEq, Repr

/-- A formats of MXRUN and MXCONV (R269, R271). -/
inductive AFmt where
  | e4m3 | e5m2 | bf16 | f16 | i8
  | pi (j : BitVec 4)
  deriving DecidableEq, Repr

/-- CLREDUCE's operation and type (R275). -/
inductive ClOp where
  | sum | min | max
  deriving DecidableEq, Repr
inductive ClTy where
  | f32 | i32 | n32
  deriving DecidableEq, Repr

/-- TLBINV's operation (R334). -/
inductive TlbOp where
  | all | va | asid
  deriving DecidableEq, Repr

/-- Space bits of a data-motion command (R274): source and destination in scratchpad, barrier credit. -/
structure DmCtl where
  sps : Bool
  spd : Bool
  bar : Bool
  deriving DecidableEq, Repr

/-- Operands of INV (R276). -/
structure InvOps where
  x : VIdx
  y : VIdx
  tgt : VIdx
  hiPair : Bool
  tol : BitVec 6
  ms : MIdx
  maxit : BitVec 6
  mode1 : Bool
  nt : Bool
  deriving DecidableEq, Repr

/-- Every row of the opcode table. -/
inductive Instr where
  -- integer vector (R220 to R223)
  | vadd (c : Ctl) (d a b : VIdx) (ms : MIdx) (m : Sat)
  | vsub (c : Ctl) (d a b : VIdx) (ms : MIdx) (m : Sat)
  | vmul (c : Ctl) (d a b : VIdx) (ms : MIdx)
  | vmulh (c : Ctl) (d a b : VIdx) (ms : MIdx) (u : Bool)
  | vmad (c : Ctl) (d a b cc : VIdx) (ms : MIdx)
  | vand (c : Ctl) (d a b : VIdx) (ms : MIdx)
  | vor (c : Ctl) (d a b : VIdx) (ms : MIdx)
  | vxor (c : Ctl) (d a b : VIdx) (ms : MIdx)
  | vshl (c : Ctl) (d a b : VIdx) (ms : MIdx)
  | vshr (c : Ctl) (d a b : VIdx) (ms : MIdx)
  | vsra (c : Ctl) (d a b : VIdx) (ms : MIdx)
  | vmin (c : Ctl) (d a b : VIdx) (ms : MIdx)
  | vmax (c : Ctl) (d a b : VIdx) (ms : MIdx)
  | vminn (c : Ctl) (d a b : VIdx) (ms : MIdx)
  | vmaxn (c : Ctl) (d a b : VIdx) (ms : MIdx)
  | vabs (c : Ctl) (d a : VIdx) (ms : MIdx) (m : Bool)
  | vneg (c : Ctl) (d a : VIdx) (ms : MIdx) (m : Bool)
  | vclz (c : Ctl) (d a : VIdx) (ms : MIdx)
  | vpopc (c : Ctl) (d a : VIdx) (ms : MIdx)
  | vcmp (c : Ctl) (d : MIdx) (a b : VIdx) (ms : MIdx) (p : Pred)
  | vsel (c : Ctl) (d a b : VIdx) (cc : MIdx) (ms : MIdx)
  | vmov (c : Ctl) (f : VMovForm) (ms : MIdx)
  | vlane (c : Ctl) (d : VIdx) (ms : MIdx)
  | vaddi (c : Ctl) (d a : VIdx) (ms : MIdx) (imm : BitVec 28)
  | vandi (c : Ctl) (d a : VIdx) (ms : MIdx) (imm : BitVec 28)
  | vori (c : Ctl) (d a : VIdx) (ms : MIdx) (imm : BitVec 28)
  | vxori (c : Ctl) (d a : VIdx) (ms : MIdx) (imm : BitVec 28)
  | vshli (c : Ctl) (d a : VIdx) (ms : MIdx) (n : BitVec 5)
  | vshri (c : Ctl) (d a : VIdx) (ms : MIdx) (n : BitVec 5)
  | vsrai (c : Ctl) (d a : VIdx) (ms : MIdx) (n : BitVec 5)
  | vmovi (c : Ctl) (d : VIdx) (ms : MIdx) (imm : BitVec 28)
  | vcmpi (c : Ctl) (d : MIdx) (a : VIdx) (ms : MIdx) (p : Pred) (imm : BitVec 24)
  -- float vector (R224 to R230)
  | fadd (c : Ctl) (d a b : VIdx) (ms : MIdx) (r : Rnd)
  | fsub (c : Ctl) (d a b : VIdx) (ms : MIdx) (r : Rnd)
  | fmul (c : Ctl) (d a b : VIdx) (ms : MIdx) (r : Rnd)
  | ffma (c : Ctl) (d a b cc : VIdx) (ms : MIdx) (r : Rnd)
  | fmin (c : Ctl) (d a b : VIdx) (ms : MIdx)
  | fmax (c : Ctl) (d a b : VIdx) (ms : MIdx)
  | fabs (c : Ctl) (d a : VIdx) (ms : MIdx)
  | fneg (c : Ctl) (d a : VIdx) (ms : MIdx)
  | fcmp (c : Ctl) (d : MIdx) (a b : VIdx) (ms : MIdx) (p : FPred)
  | fclass (c : Ctl) (d a : VIdx) (ms : MIdx)
  | fdiv (c : Ctl) (d a b : VIdx) (ms : MIdx) (r : Rnd)
  | fsqrt (c : Ctl) (d a : VIdx) (ms : MIdx) (r : Rnd)
  | frcp (c : Ctl) (d a : VIdx) (ms : MIdx)
  | frsq (c : Ctl) (d a : VIdx) (ms : MIdx)
  | fexp2 (c : Ctl) (d a : VIdx) (ms : MIdx)
  | flog2 (c : Ctl) (d a : VIdx) (ms : MIdx)
  | fsin (c : Ctl) (d a : VIdx) (ms : MIdx)
  | fcos (c : Ctl) (d a : VIdx) (ms : MIdx)
  | fscale (c : Ctl) (d a b : VIdx) (ms : MIdx) (r : Rnd)
  | ftanh (c : Ctl) (d a : VIdx) (ms : MIdx)
  | hfma2 (c : Ctl) (d a b cc : VIdx) (ms : MIdx) (r : Rnd) (bf : Bool)
  | hadd2 (c : Ctl) (d a b : VIdx) (ms : MIdx) (r : Rnd) (bf : Bool)
  | hmul2 (c : Ctl) (d a b : VIdx) (ms : MIdx) (r : Rnd) (bf : Bool)
  | scacc (c : Ctl) (d : VIdx) (a : ScaccA) (b cc : VOrS) (ms : MIdx)
  -- conversions (R231 to R233)
  | cvt (c : Ctl) (d a : VIdx) (ms : MIdx) (dst src : CvtTy) (r : Rnd)
  | pack (c : Ctl) (d a b : VIdx) (ms : MIdx) (t : PackTy) (hi : Bool) (r : Rnd)
  | unpack (c : Ctl) (d a : VIdx) (ms : MIdx) (t : PackTy) (n : BitVec 2)
  -- cross-lane (R234 to R237)
  | shfl (c : Ctl) (d a b : VIdx) (ms : MIdx) (g : GCode) (m : IdxMode)
  | shflup (c : Ctl) (d a : VIdx) (n : BitVec 6) (ms : MIdx) (g : GCode) (m : IdxMode)
  | shfldn (c : Ctl) (d a : VIdx) (n : BitVec 6) (ms : MIdx) (g : GCode) (m : IdxMode)
  | shflx (c : Ctl) (d a : VIdx) (n : BitVec 6) (ms : MIdx) (g : GCode) (m : IdxMode)
  | bcast (c : Ctl) (d a : VIdx) (l : LaneSel) (ms : MIdx) (g : GCode) (m : IdxMode)
  | vredadd (c : Ctl) (d a : VIdx) (ms : MIdx) (g : GCode)
  | vredmin (c : Ctl) (d a : VIdx) (ms : MIdx) (g : GCode) (u : Bool)
  | vredmax (c : Ctl) (d a : VIdx) (ms : MIdx) (g : GCode) (u : Bool)
  | fredadd (c : Ctl) (d a : VIdx) (ms : MIdx) (g : GCode) (r : Rnd)
  | fredmin (c : Ctl) (d a : VIdx) (ms : MIdx) (g : GCode)
  | fredmax (c : Ctl) (d a : VIdx) (ms : MIdx) (g : GCode)
  | vscan (c : Ctl) (d a : VIdx) (ms : MIdx) (g : GCode) (ex : Bool)
  | fscan (c : Ctl) (d a : VIdx) (ms : MIdx) (g : GCode) (ex : Bool) (r : Rnd)
  -- scalar and vector moves, streams (R238 to R241)
  | vfroms (c : Ctl) (d : VIdx) (a : SIdx) (ms : MIdx)
  | vtos (c : Ctl) (d : SIdx) (a : VIdx) (l : LaneSel) (ms : MIdx) (sx : Bool)
  | vins (c : Ctl) (d : VIdx) (a : SIdx) (l : LaneSel) (ms : MIdx)
  | sbind (c : Ctl) (d : DIdx) (a b cc : SIdx) (wr : Bool) (esize : BitVec 3)
  | sunbind (c : Ctl) (d : DIdx)
  | sseek (c : Ctl) (d : DIdx) (a : SIdx) (rel : Bool)
  | spos (c : Ctl) (d : SIdx) (a : DIdx) (f : SposField)
  -- memory (R244 to R252)
  | ld (c : Ctl) (d : VIdx) (m : MemV) (w : Wid)
  | st (c : Ctl) (d : VIdx) (m : MemV) (w : Wid)
  | ldsc (c : Ctl) (d : SIdx) (m : MemS) (w : Wid)
  | stsc (c : Ctl) (d : SIdx) (m : MemS) (w : Wid)
  | pref (c : Ctl) (m : MemV) (w : Wid)
  | atomAdd (c : Ctl) (d : VIdx) (m : MemV) (w64 : Bool)
  | atomSub (c : Ctl) (d : VIdx) (m : MemV) (w64 : Bool)
  | atomAnd (c : Ctl) (d : VIdx) (m : MemV) (w64 : Bool)
  | atomOr (c : Ctl) (d : VIdx) (m : MemV) (w64 : Bool)
  | atomXor (c : Ctl) (d : VIdx) (m : MemV) (w64 : Bool)
  | atomMin (c : Ctl) (d : VIdx) (m : MemV) (w64 : Bool)
  | atomMax (c : Ctl) (d : VIdx) (m : MemV) (w64 : Bool)
  | atomMinn (c : Ctl) (d : VIdx) (m : MemV) (w64 : Bool)
  | atomMaxn (c : Ctl) (d : VIdx) (m : MemV) (w64 : Bool)
  | atomXchg (c : Ctl) (d : VIdx) (m : MemV) (w64 : Bool)
  | atomCas (c : Ctl) (d : VIdx) (m : MemV) (w64 : Bool)
  | redAdd (c : Ctl) (d : VIdx) (m : MemV) (w64 : Bool)
  | redSub (c : Ctl) (d : VIdx) (m : MemV) (w64 : Bool)
  | redAnd (c : Ctl) (d : VIdx) (m : MemV) (w64 : Bool)
  | redOr (c : Ctl) (d : VIdx) (m : MemV) (w64 : Bool)
  | redXor (c : Ctl) (d : VIdx) (m : MemV) (w64 : Bool)
  | redMin (c : Ctl) (d : VIdx) (m : MemV) (w64 : Bool)
  | redMax (c : Ctl) (d : VIdx) (m : MemV) (w64 : Bool)
  | redMinn (c : Ctl) (d : VIdx) (m : MemV) (w64 : Bool)
  | redMaxn (c : Ctl) (d : VIdx) (m : MemV) (w64 : Bool)
  | fatomAdd (c : Ctl) (d : VIdx) (m : MemV)
  | fatomMin (c : Ctl) (d : VIdx) (m : MemV)
  | fatomMax (c : Ctl) (d : VIdx) (m : MemV)
  | fredAdd (c : Ctl) (d : VIdx) (m : MemV)
  | fredMin (c : Ctl) (d : VIdx) (m : MemV)
  | fredMax (c : Ctl) (d : VIdx) (m : MemV)
  | ldres (c : Ctl) (d : SIdx) (m : MemS) (w64 : Bool)
  | stcon (c : Ctl) (d : SIdx) (m : MemS) (w64 : Bool)
  -- fences, barriers, publication (R253 to R258)
  | fence (c : Ctl) (sc : Scope)
  | barinit (c : Ctl) (d base : SIdx) (off : BitVec 12)
  | bararr (c : Ctl) (base : SIdx) (off : BitVec 12)
  | barexp (c : Ctl) (d base : SIdx) (off : BitVec 12)
  | barwait (c : Ctl) (d base : SIdx) (off : BitVec 12)
  | bartest (c : Ctl) (d base : SIdx) (off : BitVec 12) (clr : Bool)
  | bsync (c : Ctl)
  | gsync (c : Ctl)
  | lsync (c : Ctl)
  | publish (c : Ctl) (d base : SIdx) (off : BitVec 12)
  -- tiles (R262 to R265)
  | tdef (c : Ctl) (td : TileRef) (k : TKind)
  | tnew (c : Ctl) (h : HIdx) (k : TKind)
  | twrite (c : Ctl) (td : TileRef) (v : VIdx) (row : BitVec 4)
  | tseal (c : Ctl) (td : TileRef)
  | tread (c : Ctl) (v : VIdx) (ta : TileRef) (row : BitVec 4)
  | tkill (c : Ctl) (ta : TileRef)
  | tstat (c : Ctl) (h : HIdx) (ta : TileRef)
  | tload (c : Ctl) (td : TileRef) (h : HIdx) (sp : Bool) (f : TLoadForm)
  | tstore (c : Ctl) (ta : TileRef) (h : HIdx) (sp : Bool) (plane : Bool)
  -- leases and engines (R266 to R275)
  | lease (c : Ctl) (h : HIdx) (k : EngClass) (sh : Bool)
  | leaset (c : Ctl) (h : HIdx) (k : EngClass) (sh : Bool)
  | vacate (c : Ctl) (h : HIdx)
  | lstat (c : Ctl) (d : SIdx) (h : HIdx)
  | mxloadb (c : Ctl) (h : HIdx) (ta : TileRef) (kb : BitVec 4) (nb : BitVec 3) (f : BFmt)
  | mxrun (c : Ctl) (h : HIdx) (ta : TileRef) (cnt : BitVec 4) (r : BitVec 2) (f : AFmt)
  | mxdrain (c : Ctl) (td : TileRef) (h : HIdx) (nb : BitVec 3) (r : BitVec 2) (z bar : Bool)
  | mxzero (c : Ctl) (h : HIdx) (r : BitVec 2)
  | mxconv (c : Ctl) (h : HIdx) (r : BitVec 2) (f : AFmt) (sp : Bool)
  | cvshape (c : Ctl) (h : HIdx)
  | dmcopy (c : Ctl) (h : HIdx) (k : DmCtl)
  | dmgather (c : Ctl) (h : HIdx) (v : VIdx) (n : BitVec 4) (k : DmCtl)
  | dmscatter (c : Ctl) (h : HIdx) (v : VIdx) (n : BitVec 4) (k : DmCtl)
  | dmfill (c : Ctl) (h : HIdx) (spd bar : Bool)
  | clreduce (c : Ctl) (h : HIdx) (tag : BitVec 8) (op : ClOp) (ty : ClTy) (bar : Bool)
  | clgather (c : Ctl) (h : HIdx) (tag : BitVec 8) (bar : Bool)
  | clbcast (c : Ctl) (h : HIdx) (tag : BitVec 8) (bar : Bool)
  -- batons and control (R199 to R217)
  | nop (c : Ctl)
  | pass (c : Ctl) (d a : SIdx)
  | passi (c : Ctl) (d : SIdx) (w : BitVec 5)
  | passx (c : Ctl) (d a b : SIdx) (q : Option VIdx)
  | passf (c : Ctl) (d : SIdx)
  | setfs (c : Ctl) (a : SIdx)
  | exit (c : Ctl)
  | exitp (c : Ctl) (a : SIdx)
  | csrrd (c : Ctl) (d : SIdx) (n : BitVec 12)
  | csrwr (c : Ctl) (n : BitVec 12) (a : SIdx)
  | inboxClear (c : Ctl) (a : SIdx)
  | invstateAbandon (c : Ctl) (a : SIdx)
  | waitc (c : Ctl) (cls : BitVec 6) (n : BitVec 6)
  | gtime (c : Ctl) (d : SIdx)
  | trap (c : Ctl) (n : BitVec 16)
  | trapLazy (c : Ctl)
  | brk (c : Ctl) (n : BitVec 16)
  | br (c : Ctl) (off : BitVec 32)
  | brz (c : Ctl) (a : SIdx) (off : BitVec 32)
  | brnz (c : Ctl) (a : SIdx) (off : BitVec 32)
  | brnone (c : Ctl) (m : MIdx) (off : BitVec 32)
  | brany (c : Ctl) (m : MIdx) (off : BitVec 32)
  | brall (c : Ctl) (m : MIdx) (off : BitVec 32)
  | call (c : Ctl) (off : BitVec 32)
  | calli (c : Ctl) (v : VIdx) (cls : BitVec 8)
  | ret (c : Ctl)
  | split (c : Ctl) (m : MIdx) (off : BitVec 32)
  | join (c : Ctl)
  -- scalar (R194 to R197)
  | sadd (c : Ctl) (d a b : SIdx)
  | ssub (c : Ctl) (d a b : SIdx)
  | smul (c : Ctl) (d a b : SIdx)
  | smulh (c : Ctl) (d a b : SIdx) (u : Bool)
  | sdiv (c : Ctl) (d a b : SIdx) (u : Bool)
  | srem (c : Ctl) (d a b : SIdx) (u : Bool)
  | sand (c : Ctl) (d a b : SIdx)
  | sor (c : Ctl) (d a b : SIdx)
  | sxor (c : Ctl) (d a b : SIdx)
  | sshl (c : Ctl) (d a b : SIdx)
  | sshr (c : Ctl) (d a b : SIdx)
  | ssra (c : Ctl) (d a b : SIdx)
  | smin (c : Ctl) (d a b : SIdx)
  | smax (c : Ctl) (d a b : SIdx)
  | sminn (c : Ctl) (d a b : SIdx)
  | smaxn (c : Ctl) (d a b : SIdx)
  | scmp (c : Ctl) (d a b : SIdx) (p : Pred)
  | ssel (c : Ctl) (d a b cc : SIdx)
  | smov (c : Ctl) (d a : SIdx)
  | sclz (c : Ctl) (d a : SIdx)
  | spopc (c : Ctl) (d a : SIdx)
  | sbfx (c : Ctl) (d a : SIdx) (pos len1 : BitVec 6) (sgn : Bool)
  | sbfi (c : Ctl) (d a : SIdx) (pos len1 : BitVec 6)
  | saddi (c : Ctl) (d a : SIdx) (imm : BitVec 32)
  | sandi (c : Ctl) (d a : SIdx) (imm : BitVec 32)
  | sori (c : Ctl) (d a : SIdx) (imm : BitVec 32)
  | sxori (c : Ctl) (d a : SIdx) (imm : BitVec 32)
  | sshli (c : Ctl) (d a : SIdx) (n : BitVec 6)
  | sshri (c : Ctl) (d a : SIdx) (n : BitVec 6)
  | ssrai (c : Ctl) (d a : SIdx) (n : BitVec 6)
  | smovi (c : Ctl) (d : SIdx) (imm : BitVec 32)
  | shii (c : Ctl) (d : SIdx) (imm : BitVec 32)
  | scmpi (c : Ctl) (d a : SIdx) (p : Pred) (imm : BitVec 28)
  -- masks (R198)
  | mand (c : Ctl) (d a b : MIdx)
  | mor (c : Ctl) (d a b : MIdx)
  | mxor (c : Ctl) (d a b : MIdx)
  | mandn (c : Ctl) (d a b : MIdx)
  | mnot (c : Ctl) (d a : MIdx)
  | mmov (c : Ctl) (d a : MIdx)
  | mcnt (c : Ctl) (d : SIdx) (a : MIdx)
  | mfirst (c : Ctl) (d : SIdx) (a : MIdx)
  | mfroms (c : Ctl) (d : MIdx) (a : SIdx)
  | mtos (c : Ctl) (d : SIdx) (a : MIdx)
  | inv (c : Ctl) (o : InvOps)
  | dictionaryCode (k : BitVec 4) (n : BitVec 10)
  -- privileged (R329 to R339)
  | rdpr (c : Ctl) (d : SIdx) (n : BitVec 12)
  | wrpr (c : Ctl) (n : BitVec 12) (a : SIdx)
  | voteWrite (c : Ctl) (a : SIdx)
  | tret (c : Ctl)
  | haltg (c : Ctl)
  | resumeg (c : Ctl)
  | shsave (c : Ctl) (d a : SIdx)
  | shrest (c : Ctl) (d a : SIdx)
  | tlbinv (c : Ctl) (op : TlbOp) (a : SIdx)
  | evict (c : Ctl) (d a : SIdx)
  | ctrsel (c : Ctl) (a : SIdx)
  | aszrec (c : Ctl) (d a b : SIdx)
  | tabort (c : Ctl) (a : SIdx)
  | warpctlStat (c : Ctl) (d a : SIdx)
  | warpctlKill (c : Ctl) (d a : SIdx)
  -- R188
  | unassignedOpcode (w : Word)
  -- happenings of the core (R34 to R63)
  | reservationGrant
  | spill
  | slip
  | tenureTransfer
  | starvationRescue
  | pathSwitchStall
  | pathAgeingSwitch
  | engineSramError
  -- completions (R130 to R147)
  | loadComplete
  | writeApply
  | writeComplete
  | streamElementsArrive
  | tileWriteAccept
  | tileReadComplete
  | tileDrainComplete
  | definerVoid
  | tileWaitWatchdog
  | blockStart
  | blockRetire
  | syncReleaseWave
  | leaseGrant
  | leaseWake
  | leaseEviction
  | engineStop
  | vacateComplete
  | retentionExpiry
  | engineCommandComplete
  | collectiveAbort
  | publishVersionWritten
  | chainTimeTick
  | preemptStop
  -- host, front end, power (R148, R354 to R393)
  | hostWindowRead
  | hostWindowWrite
  | publicationDescriptorWrite
  | qtailDoorbell
  | qctlHaltedClear
  | registerWrite
  | launchRecordRead
  | waitaddrPoll
  | gangPlacement
  | launchEnd
  | launchDoneCount
  | sliceEnd
  | preemptHandlerEntry
  | forcedSave
  | sliceStart
  | railStep
  | railHoldEnd
  | clockSwitch
  | quotaExhausted
  | furlongWindow
  | furlongPortDown
  | flitRetry
  -- mailbox (R418), bring-up (R422)
  | attest
  | readout
  | frameset
  | quotaset
  | perchbind
  | perchunbind
  | checkpoint
  | checkpointEnd
  | ckstatus
  | restore
  | restoreEnd
  | warmreset
  | powerOnReset
  -- Perch port (R402 to R408)
  | perchWarpStop
  | perchPathHold
  | perchReleaseWarp
  | perchReleasePath
  | perchReleaseAll
  | breakpointHit
  | mdataRead
  | mdataWrite
  | sampleArm
  | traceArm
  | stallSample
  | furlongPortUp
  | furlongPortDegraded
  | keyDomainRekey
  | partitionReconfigure
  | replayCapture
  | replay
  deriving DecidableEq, Repr

end Sys2Proof
end

