-- ==== Sys2Proof/Decode.lean ====
section
/-! DEFINITION. From bits to instructions and back (spec/08 R172 to R191, and the entries' encodings). `decode` is total: it gives an instruction or names the check of R190 (5, 7 or 8) that fails. The encoder is written from the same tables. Checks 1 to 4, 6 and 9 need the machine and stand in Machine/. -/
namespace Sys2Proof

/-- Why a word is no instruction (R188, R190). The privileged check (PRIV) needs the mode and is made by the machine. -/
inductive DecErr where
  | opcode | reserved | modv
  deriving DecidableEq, Repr

/-! ## Words and their common fields (R178, R179) -/

/-- Bits 51:16 and 11:0 hold what the formats differ in; the rest is common. -/
def packWord (g : BitVec 2) (op : BitVec 10) (mid : BitVec 36) (c : Ctl) (lo : BitVec 12) : Word :=
  g ++ op ++ mid ++ c.lu ++ BitVec.ofBool c.safe ++ lo

def wG (w : Word) : BitVec 2 := w.extractLsb' 62 2
def wOp (w : Word) : BitVec 10 := w.extractLsb' 52 10
def wMid (w : Word) : BitVec 36 := w.extractLsb' 16 36
def wCtl (w : Word) : Ctl := ⟨w.extractLsb' 13 3, w.getLsbD 12⟩
def wLo (w : Word) : BitVec 12 := w.extractLsb' 0 12

/-- V3 and SR: D, A, B, C, MS in the middle; MOD, SUB below. -/
structure V3 where
  d : BitVec 8
  a : BitVec 8
  b : BitVec 8
  cc : BitVec 8
  ms : BitVec 4
  md : BitVec 4
  sub : BitVec 8
  deriving DecidableEq, Repr

def V3.mid (f : V3) : BitVec 36 := f.d ++ f.a ++ f.b ++ f.cc ++ f.ms
def V3.lo (f : V3) : BitVec 12 := f.md ++ f.sub
def V3.of (m : BitVec 36) (l : BitVec 12) : V3 :=
  ⟨m.extractLsb' 28 8, m.extractLsb' 20 8, m.extractLsb' 12 8, m.extractLsb' 4 8, m.extractLsb' 0 4,
   l.extractLsb' 8 4, l.extractLsb' 0 8⟩

/-- VI: D, A, MS and a 28-bit immediate in two pieces. -/
structure VI where
  d : BitVec 8
  a : BitVec 8
  ms : BitVec 4
  imm : BitVec 28
  deriving DecidableEq, Repr

def VI.mid (f : VI) : BitVec 36 := f.d ++ f.a ++ f.ms ++ f.imm.extractLsb' 12 16
def VI.lo (f : VI) : BitVec 12 := f.imm.extractLsb' 0 12
def VI.of (m : BitVec 36) (l : BitVec 12) : VI :=
  ⟨m.extractLsb' 28 8, m.extractLsb' 20 8, m.extractLsb' 16 4, m.extractLsb' 0 16 ++ l⟩

/-- SI and C: two 8-bit fields and a 32-bit immediate or offset in two pieces. -/
structure SI where
  d : BitVec 8
  a : BitVec 8
  imm : BitVec 32
  deriving DecidableEq, Repr

def SI.mid (f : SI) : BitVec 36 := f.d ++ f.a ++ f.imm.extractLsb' 12 20
def SI.lo (f : SI) : BitVec 12 := f.imm.extractLsb' 0 12
def SI.of (m : BitVec 36) (l : BitVec 12) : SI :=
  ⟨m.extractLsb' 28 8, m.extractLsb' 20 8, m.extractLsb' 0 20 ++ l⟩

/-- M: D, BASE, IDX, WID, SC, SP, MS and a 12-bit offset. -/
structure MF where
  d : BitVec 8
  base : BitVec 8
  idx : BitVec 8
  wid : BitVec 3
  sc : BitVec 3
  sp : BitVec 2
  ms : BitVec 4
  off : BitVec 12
  deriving DecidableEq, Repr

def MF.mid (f : MF) : BitVec 36 := f.d ++ f.base ++ f.idx ++ f.wid ++ f.sc ++ f.sp ++ f.ms
def MF.of (m : BitVec 36) (l : BitVec 12) : MF :=
  ⟨m.extractLsb' 28 8, m.extractLsb' 20 8, m.extractLsb' 12 8, m.extractLsb' 9 3, m.extractLsb' 6 3,
   m.extractLsb' 4 2, m.extractLsb' 0 4, l⟩

/-- T: two 13-bit tile fields, H, AUX and a 12-bit immediate. -/
structure TF where
  td : BitVec 13
  ta : BitVec 13
  h : BitVec 6
  aux : BitVec 4
  imm : BitVec 12
  deriving DecidableEq, Repr

def TF.mid (f : TF) : BitVec 36 := f.td ++ f.ta ++ f.h ++ f.aux
def TF.of (m : BitVec 36) (l : BitVec 12) : TF :=
  ⟨m.extractLsb' 23 13, m.extractLsb' 10 13, m.extractLsb' 4 6, m.extractLsb' 0 4, l⟩

/-- P: INV's fields (R276). -/
structure PF where
  x : BitVec 8
  y : BitVec 8
  tgt : BitVec 8
  br : BitVec 2
  tol : BitVec 6
  ms : BitVec 4
  maxit : BitVec 6
  mode : BitVec 1
  nt : BitVec 1
  zero : BitVec 4
  deriving DecidableEq, Repr

def PF.mid (f : PF) : BitVec 36 := f.x ++ f.y ++ f.tgt ++ f.br ++ f.tol ++ f.ms
def PF.lo (f : PF) : BitVec 12 := f.maxit ++ f.mode ++ f.nt ++ f.zero
def PF.of (m : BitVec 36) (l : BitVec 12) : PF :=
  ⟨m.extractLsb' 28 8, m.extractLsb' 20 8, m.extractLsb' 12 8, m.extractLsb' 10 2, m.extractLsb' 4 6,
   m.extractLsb' 0 4, l.extractLsb' 6 6, l.extractLsb' 5 1, l.extractLsb' 4 1, l.extractLsb' 0 4⟩

/-! ## Register classes in 8-bit fields (R180) -/

def sBad (f : BitVec 8) : Bool := f.extractLsb' 7 1 != 0
def sOf (f : BitVec 8) : SIdx := f.extractLsb' 0 7
def mBad (f : BitVec 8) : Bool := f.extractLsb' 4 4 != 0
def mOf (f : BitVec 8) : MIdx := f.extractLsb' 0 4
def bBad (f : BitVec 8) : Bool := f.extractLsb' 2 6 != 0
def bOf (f : BitVec 8) : BIdx := f.extractLsb' 0 2
def dBad (f : BitVec 8) : Bool := f.extractLsb' 3 5 != 0
def dOf (f : BitVec 8) : DIdx := f.extractLsb' 0 3
def cBad (f : BitVec 8) : Bool := f.extractLsb' 6 2 != 0
def cOf (f : BitVec 8) : BitVec 6 := f.extractLsb' 0 6
def s8 (r : SIdx) : BitVec 8 := (0 : BitVec 1) ++ r
def m8 (r : MIdx) : BitVec 8 := (0 : BitVec 4) ++ r
def b8 (r : BIdx) : BitVec 8 := (0 : BitVec 6) ++ r
def d8 (r : DIdx) : BitVec 8 := (0 : BitVec 5) ++ r
def c8 (n : BitVec 6) : BitVec 8 := (0 : BitVec 2) ++ n

/-- R82: bit 12 selects the register form, whose bits 11:7 must be zero. -/
def tBad (f : BitVec 13) : Bool := f.extractLsb' 12 1 == 1 && f.extractLsb' 7 5 != 0
def tOf (f : BitVec 13) : TileRef :=
  if f.extractLsb' 12 1 = 1 then .reg (f.extractLsb' 0 7) else .name (f.extractLsb' 0 12)
def t13 : TileRef → BitVec 13
  | .name n => (0 : BitVec 1) ++ n
  | .reg s => (1 : BitVec 1) ++ (0 : BitVec 5) ++ s

/-! ## Modifier codes -/

def Sat.code : Sat → BitVec 8
  | .wrap => 0 | .sat => 1 | .satu => 2
def Sat.of (n : BitVec 8) : Option Sat :=
  if n = 0 then some .wrap else if n = 1 then some .sat else if n = 2 then some .satu else none

def boolCode (b : Bool) : BitVec 8 := if b then 1 else 0
def boolOf (n : BitVec 8) : Option Bool :=
  if n = 0 then some false else if n = 1 then some true else none

/-- R194. -/
def Pred.code : Pred → BitVec 4
  | .eq => 0 | .ne => 1 | .lt => 2 | .le => 3 | .gt => 4 | .ge => 5 | .ltu => 6 | .leu => 7 | .gtu => 8 | .geu => 9
def Pred.of (n : BitVec 4) : Option Pred :=
  if n = 0 then some .eq else if n = 1 then some .ne else if n = 2 then some .lt else if n = 3 then some .le
  else if n = 4 then some .gt else if n = 5 then some .ge else if n = 6 then some .ltu else if n = 7 then some .leu
  else if n = 8 then some .gtu else if n = 9 then some .geu else none
def Pred.of8 (n : BitVec 8) : Option Pred :=
  if n.extractLsb' 4 4 = 0 then Pred.of (n.extractLsb' 0 4) else none

/-- R225. -/
def FPred.code : FPred → BitVec 8
  | .eq => 0 | .ne => 1 | .lt => 2 | .le => 3 | .gt => 4 | .ge => 5 | .un => 6 | .ord => 7
def FPred.of (n : BitVec 8) : Option FPred :=
  if n = 0 then some .eq else if n = 1 then some .ne else if n = 2 then some .lt else if n = 3 then some .le
  else if n = 4 then some .gt else if n = 5 then some .ge else if n = 6 then some .un else if n = 7 then some .ord
  else none

/-- R105. -/
def Rnd.code : Rnd → BitVec 4
  | .dflt => 0 | .rn => 1 | .rz => 2 | .ru => 3 | .rd => 4
def Rnd.of (n : BitVec 4) : Option Rnd :=
  if n = 0 then some .dflt else if n = 1 then some .rn else if n = 2 then some .rz else if n = 3 then some .ru
  else if n = 4 then some .rd else none

/-- R231: the type code, and the k nibble that only a PI side may set. -/
def CvtTy.code : CvtTy → BitVec 4
  | .f32 => 0 | .f16 => 1 | .bf16 => 2 | .e4m3 => 3 | .e5m2 => 4 | .i8 => 5 | .i16 => 6 | .i32 => 7
  | .n8 => 8 | .n16 => 9 | .n32 => 10 | .pi _ => 11
def CvtTy.k : CvtTy → BitVec 4
  | .pi k => k
  | _ => 0
def kOk (k : BitVec 4) : Bool := 2 ≤ k.toNat && k.toNat ≤ 8
def CvtTy.of (n k : BitVec 4) : Option CvtTy :=
  if n = 0 then some .f32 else if n = 1 then some .f16 else if n = 2 then some .bf16 else if n = 3 then some .e4m3
  else if n = 4 then some .e5m2 else if n = 5 then some .i8 else if n = 6 then some .i16 else if n = 7 then some .i32
  else if n = 8 then some .n8 else if n = 9 then some .n16 else if n = 10 then some .n32
  else if n = 11 then (if kOk k then some (.pi k) else none) else none

/-- R232. -/
def PackTy.code : PackTy → BitVec 4
  | .f16 => 1 | .bf16 => 2 | .e4m3 => 3 | .e5m2 => 4 | .i8 => 5 | .i16 => 6 | .n8 => 8 | .n16 => 9
def PackTy.of (n : BitVec 4) : Option PackTy :=
  if n = 1 then some .f16 else if n = 2 then some .bf16 else if n = 3 then some .e4m3 else if n = 4 then some .e5m2
  else if n = 5 then some .i8 else if n = 6 then some .i16 else if n = 8 then some .n8 else if n = 9 then some .n16
  else none
/-- Whether an element of the type has 8 bits. -/
def PackTy.byte : PackTy → Bool
  | .e4m3 | .e5m2 | .i8 | .n8 => true
  | _ => false
/-- R232: a type to which MOD gives a rounding. -/
def PackTy.float : PackTy → Bool
  | .f16 | .bf16 | .e4m3 | .e5m2 => true
  | _ => false

/-- R234. -/
def GCode.code : GCode → BitVec 3
  | .full => 0 | .g2 => 1 | .g4 => 2 | .g8 => 3 | .g16 => 4 | .g32 => 5 | .g64 => 6
def GCode.of (n : BitVec 3) : Option GCode :=
  if n = 0 then some .full else if n = 1 then some .g2 else if n = 2 then some .g4 else if n = 3 then some .g8
  else if n = 4 then some .g16 else if n = 5 then some .g32 else if n = 6 then some .g64 else none
def IdxMode.code : IdxMode → BitVec 2
  | .wrap => 0 | .clamp => 1 | .own => 2
def IdxMode.of (n : BitVec 2) : Option IdxMode :=
  if n = 0 then some .wrap else if n = 1 then some .clamp else if n = 2 then some .own else none

/-- R239. -/
def SposField.code : SposField → BitVec 8
  | .pos => 0 | .cnt => 1 | .base => 2 | .str => 3
def SposField.of (n : BitVec 8) : Option SposField :=
  if n = 0 then some .pos else if n = 1 then some .cnt else if n = 2 then some .base else if n = 3 then some .str
  else none

/-- R182. -/
def Wid.code : Wid → BitVec 3
  | .n8 => 0 | .i8 => 1 | .n16 => 2 | .i16 => 3 | .w32 => 4 | .w64 => 5
def Wid.of (n : BitVec 3) : Option Wid :=
  if n = 0 then some .n8 else if n = 1 then some .i8 else if n = 2 then some .n16 else if n = 3 then some .i16
  else if n = 4 then some .w32 else if n = 5 then some .w64 else none
def Wid.signed : Wid → Bool
  | .i8 | .i16 => true
  | _ => false
/-- WID of the accesses that take .32 and .64 only. -/
def wid64 (b : Bool) : BitVec 3 := if b then 5 else 4
def wid64Of (n : BitVec 3) : Option Bool := if n = 4 then some false else if n = 5 then some true else none
def SC.code : SC → BitVec 3
  | .none => 0 | .na => 1 | .nt => 2 | .ro => 3
def SC.of (n : BitVec 3) : SC :=
  if n = 1 then .na else if n = 2 then .nt else if n = 3 then .ro else .none
def Scope.code : Scope → BitVec 3
  | .b => 1 | .g => 2 | .d => 3
def Scope.of (n : BitVec 3) : Option Scope :=
  if n = 1 then some .b else if n = 2 then some .g else if n = 3 then some .d else none

/-- R262: KIND in AUX[1:0], planes in IMM12[3:0]. -/
def TKind.code : TKind → BitVec 4
  | .w32 => 0 | .w16 => 1 | .w8 => 2 | .pi _ => 3
def TKind.planes : TKind → BitVec 4
  | .pi k => k
  | _ => 0
def TKind.of (aux k : BitVec 4) : Option TKind :=
  if aux = 0 then (if k = 0 then some .w32 else none)
  else if aux = 1 then (if k = 0 then some .w16 else none)
  else if aux = 2 then (if k = 0 then some .w8 else none)
  else if aux = 3 then (if kOk k then some (.pi k) else none) else none

/-- R265: IMM12 of TLOAD. -/
def TLoadForm.code : TLoadForm → BitVec 12
  | .row => 0
  | .plane m j => (0 : BitVec 4) ++ j ++ m
def TLoadForm.of (n : BitVec 12) : Option TLoadForm :=
  if n = 0 then some .row
  else if n.extractLsb' 8 4 = 0 && 2 ≤ (n.extractLsb' 4 4).toNat && (n.extractLsb' 4 4).toNat ≤ (n.extractLsb' 0 4).toNat
      && (n.extractLsb' 0 4).toNat ≤ 8 then some (.plane (n.extractLsb' 0 4) (n.extractLsb' 4 4))
  else none

/-- R151. -/
def EngClass.code : EngClass → BitVec 2
  | .mx => 0 | .dm => 1 | .cv => 2 | .cl => 3
def EngClass.of (n : BitVec 2) : EngClass :=
  if n = 0 then .mx else if n = 1 then .dm else if n = 2 then .cv else .cl

/-- R269. -/
def BFmt.code : BFmt → BitVec 3
  | .e4m3 => 0 | .e5m2 => 1 | .bf16 => 2 | .f16 => 3 | .i8 => 4 | .pi => 5 | .i16 => 6
def BFmt.of (n : BitVec 3) : Option BFmt :=
  if n = 0 then some .e4m3 else if n = 1 then some .e5m2 else if n = 2 then some .bf16 else if n = 3 then some .f16
  else if n = 4 then some .i8 else if n = 5 then some .pi else if n = 6 then some .i16 else none
def AFmt.code : AFmt → BitVec 3
  | .e4m3 => 0 | .e5m2 => 1 | .bf16 => 2 | .f16 => 3 | .i8 => 4 | .pi _ => 5
def AFmt.j : AFmt → BitVec 4
  | .pi j => j
  | _ => 0
/-- R271: planes j belong to .pi alone; another format with a non-zero j raises MOD, where the spec names no subcode (log 49). -/
def AFmt.of (n : BitVec 3) (j : BitVec 4) : Option AFmt :=
  if n = 5 then (if kOk j then some (.pi j) else none)
  else if j ≠ 0 then none
  else if n = 0 then some .e4m3 else if n = 1 then some .e5m2 else if n = 2 then some .bf16
  else if n = 3 then some .f16 else if n = 4 then some .i8 else none

/-- R275. -/
def ClOp.code : ClOp → BitVec 2
  | .sum => 0 | .min => 1 | .max => 2
def ClOp.of (n : BitVec 2) : Option ClOp :=
  if n = 0 then some .sum else if n = 1 then some .min else if n = 2 then some .max else none
def ClTy.code : ClTy → BitVec 2
  | .f32 => 0 | .i32 => 1 | .n32 => 2
def ClTy.of (n : BitVec 2) : Option ClTy :=
  if n = 0 then some .f32 else if n = 1 then some .i32 else if n = 2 then some .n32 else none

/-- R329. -/
def TlbOp.code : TlbOp → BitVec 8
  | .all => 0 | .va => 1 | .asid => 2
def TlbOp.of (n : BitVec 8) : Option TlbOp :=
  if n = 0 then some .all else if n = 1 then some .va else if n = 2 then some .asid else none

/-! ## Decoding -/

/-- Check 7 before check 8 (R190): a reserved bit is reported first, then a modifier value the entry does not list. -/
def chk (bad : Bool) (o : Option Instr) : Except DecErr Instr :=
  if bad then .error .reserved else match o with
    | some i => .ok i
    | none => .error .modv

/-- An instruction that lists no MOD and no SUB value. -/
def plain (f : V3) (i : Instr) : Option Instr := if f.md = 0 && f.sub = 0 then some i else none
/-- MOD must be zero. -/
def mod0 (f : V3) (o : Option Instr) : Option Instr := if f.md = 0 then o else none
/-- SUB must be zero and MOD is the rounding field (R105). -/
def rnd (f : V3) (k : Rnd → Instr) : Option Instr :=
  if f.sub = 0 then (Rnd.of f.md).map k else none

def dVVV (f : V3) (k : VIdx → VIdx → VIdx → MIdx → Instr) : Except DecErr Instr :=
  chk (f.cc != 0) (plain f (k f.d f.a f.b f.ms))
def dVV (f : V3) (k : VIdx → VIdx → MIdx → Instr) : Except DecErr Instr :=
  chk (f.b != 0 || f.cc != 0) (plain f (k f.d f.a f.ms))
def dVVVr (f : V3) (k : VIdx → VIdx → VIdx → MIdx → Rnd → Instr) : Except DecErr Instr :=
  chk (f.cc != 0) (rnd f (k f.d f.a f.b f.ms))
def dVVr (f : V3) (k : VIdx → VIdx → MIdx → Rnd → Instr) : Except DecErr Instr :=
  chk (f.b != 0 || f.cc != 0) (rnd f (k f.d f.a f.ms))

/-- SUB of the cross-lane family (R234) with bits 7 and 6 clear: index mode and subgroup. -/
def dShf (f : V3) (k : GCode → IdxMode → Instr) : Option Instr :=
  if f.md = 0 && f.sub.extractLsb' 5 3 = 0 then
    match GCode.of (f.sub.extractLsb' 0 3), IdxMode.of (f.sub.extractLsb' 3 2) with
    | some g, some m => some (k g m)
    | _, _ => none
  else none
def subShf (g : GCode) (m : IdxMode) : BitVec 8 := (0 : BitVec 3) ++ m.code ++ g.code
/-- SUB of a reduction or scan: bit 5 is .U or .EX where the entry has it. -/
def dRed (f : V3) (k : GCode → Bool → Instr) : Option Instr :=
  if f.sub.extractLsb' 6 2 = 0 && f.sub.extractLsb' 3 2 = 0 then
    (GCode.of (f.sub.extractLsb' 0 3)).map (fun g => k g (f.sub.getLsbD 5))
  else none
def subRed (g : GCode) (u : Bool) : BitVec 8 := (0 : BitVec 2) ++ BitVec.ofBool u ++ (0 : BitVec 2) ++ g.code
/-- A reduction that has no .U form. -/
def noU (f : V3) (o : Option Instr) : Option Instr := if f.sub.getLsbD 5 then none else o

/-- Group 0b00, opcodes 0x000 to 0x016 (R220 to R222). -/
def decVInt (op : Nat) (c : Ctl) (f : V3) : Except DecErr Instr :=
  match op with
  | 0x000 => chk (f.cc != 0) (mod0 f ((Sat.of f.sub).map (.vadd c f.d f.a f.b f.ms)))
  | 0x001 => chk (f.cc != 0) (mod0 f ((Sat.of f.sub).map (.vsub c f.d f.a f.b f.ms)))
  | 0x002 => dVVV f (.vmul c)
  | 0x003 => chk (f.cc != 0) (mod0 f ((boolOf f.sub).map (.vmulh c f.d f.a f.b f.ms)))
  | 0x004 => chk false (plain f (.vmad c f.d f.a f.b f.cc f.ms))
  | 0x005 => dVVV f (.vand c)
  | 0x006 => dVVV f (.vor c)
  | 0x007 => dVVV f (.vxor c)
  | 0x008 => dVVV f (.vshl c)
  | 0x009 => dVVV f (.vshr c)
  | 0x00A => dVVV f (.vsra c)
  | 0x00B => dVVV f (.vmin c)
  | 0x00C => dVVV f (.vmax c)
  | 0x00D => dVVV f (.vminn c)
  | 0x00E => dVVV f (.vmaxn c)
  | 0x00F => chk (f.b != 0 || f.cc != 0) (mod0 f ((boolOf f.sub).map (.vabs c f.d f.a f.ms)))
  | 0x010 => chk (f.b != 0 || f.cc != 0) (mod0 f ((boolOf f.sub).map (.vneg c f.d f.a f.ms)))
  | 0x011 => dVV f (.vclz c)
  | 0x012 => dVV f (.vpopc c)
  | 0x013 => chk (mBad f.d || f.cc != 0) (mod0 f ((Pred.of8 f.sub).map (.vcmp c (mOf f.d) f.a f.b f.ms)))
  | 0x014 => chk (mBad f.cc) (plain f (.vsel c f.d f.a f.b (mOf f.cc) f.ms))
  | 0x015 =>
    let bc := f.b != 0 || f.cc != 0
    if f.sub = 1 then chk (bc || bBad f.d) (mod0 f (some (.vmov c (.bv (bOf f.d) f.a) f.ms)))
    else if f.sub = 2 then chk (bc || bBad f.a) (mod0 f (some (.vmov c (.vb f.d (bOf f.a)) f.ms)))
    else chk bc (plain f (.vmov c (.vv f.d f.a) f.ms))
  | 0x016 => chk (f.a != 0 || f.b != 0 || f.cc != 0) (plain f (.vlane c f.d f.ms))
  | _ => .error .opcode

/-- Group 0b00, opcodes 0x020 to 0x028 (R223). -/
def decVImm (op : Nat) (c : Ctl) (f : VI) : Except DecErr Instr :=
  let sh := f.imm.extractLsb' 5 23 != 0
  let n := f.imm.extractLsb' 0 5
  match op with
  | 0x020 => .ok (.vaddi c f.d f.a f.ms f.imm)
  | 0x021 => .ok (.vandi c f.d f.a f.ms f.imm)
  | 0x022 => .ok (.vori c f.d f.a f.ms f.imm)
  | 0x023 => .ok (.vxori c f.d f.a f.ms f.imm)
  | 0x024 => chk sh (some (.vshli c f.d f.a f.ms n))
  | 0x025 => chk sh (some (.vshri c f.d f.a f.ms n))
  | 0x026 => chk sh (some (.vsrai c f.d f.a f.ms n))
  | 0x027 => chk (f.a != 0) (some (.vmovi c f.d f.ms f.imm))
  | 0x028 => chk (mBad f.d)
      ((Pred.of (f.imm.extractLsb' 24 4)).map (fun p => .vcmpi c (mOf f.d) f.a f.ms p (f.imm.extractLsb' 0 24)))
  | _ => .error .opcode

/-- SCACC's operand selectors (R229). A bit of SUB that must be zero raises MOD here, in PACK, UNPACK, SBIND, VTOS and VINS, as a SUB value
the entry does not list, and RESERVED in SBFX and SBFI: R181 and R190 fit both (log 49). -/
def decScacc (c : Ctl) (f : V3) : Except DecErr Instr :=
  let t := f.sub.getLsbD 2
  let cs := f.sub.getLsbD 1
  let bs := f.sub.getLsbD 0
  let row := f.sub.extractLsb' 4 4
  chk ((t && sBad f.a) || (cs && sBad f.cc) || (bs && sBad f.b))
    (mod0 f (if f.sub.getLsbD 3 || (!t && row != 0) then none else
      some (.scacc c f.d (if t then .tile (sOf f.a) row else .v f.a)
        (if bs then .s (sOf f.b) else .v f.b) (if cs then .s (sOf f.cc) else .v f.cc) f.ms)))
def subScacc (a : ScaccA) (b cc : VOrS) : BitVec 8 :=
  let row : BitVec 4 := match a with | .tile _ r => r | .v _ => 0
  let t := match a with | .tile _ _ => true | .v _ => false
  let isS : VOrS → Bool := fun o => match o with | .s _ => true | .v _ => false
  row ++ (0 : BitVec 1) ++ BitVec.ofBool t ++ BitVec.ofBool (isS cc) ++ BitVec.ofBool (isS b)

/-- Group 0b00, opcodes 0x040 to 0x057 (R224 to R229). -/
def decVFloat (op : Nat) (c : Ctl) (f : V3) : Except DecErr Instr :=
  match op with
  | 0x040 => dVVVr f (.fadd c)
  | 0x041 => dVVVr f (.fsub c)
  | 0x042 => dVVVr f (.fmul c)
  | 0x043 => chk false (rnd f (.ffma c f.d f.a f.b f.cc f.ms))
  | 0x044 => dVVV f (.fmin c)
  | 0x045 => dVVV f (.fmax c)
  | 0x046 => dVV f (.fabs c)
  | 0x047 => dVV f (.fneg c)
  | 0x048 => chk (mBad f.d || f.cc != 0) (mod0 f ((FPred.of f.sub).map (.fcmp c (mOf f.d) f.a f.b f.ms)))
  | 0x049 => dVV f (.fclass c)
  | 0x04A => dVVVr f (.fdiv c)
  | 0x04B => dVVr f (.fsqrt c)
  | 0x04C => dVV f (.frcp c)
  | 0x04D => dVV f (.frsq c)
  | 0x04E => dVV f (.fexp2 c)
  | 0x04F => dVV f (.flog2 c)
  | 0x050 => dVV f (.fsin c)
  | 0x051 => dVV f (.fcos c)
  | 0x052 => dVVVr f (.fscale c)
  | 0x053 => dVV f (.ftanh c)
  | 0x054 => chk false ((Rnd.of f.md).bind (fun r => (boolOf f.sub).map (.hfma2 c f.d f.a f.b f.cc f.ms r)))
  | 0x055 => chk (f.cc != 0) ((Rnd.of f.md).bind (fun r => (boolOf f.sub).map (.hadd2 c f.d f.a f.b f.ms r)))
  | 0x056 => chk (f.cc != 0) ((Rnd.of f.md).bind (fun r => (boolOf f.sub).map (.hmul2 c f.d f.a f.b f.ms r)))
  | 0x057 => decScacc c f
  | _ => .error .opcode

/-- R231: a nibble of C that no PI side uses must be zero. -/
def decCvt (c : Ctl) (f : V3) : Except DecErr Instr :=
  let dt := f.sub.extractLsb' 4 4
  let st := f.sub.extractLsb' 0 4
  let dk := f.cc.extractLsb' 4 4
  let sk := f.cc.extractLsb' 0 4
  chk (f.b != 0 || (dt != 11 && dk != 0) || (st != 11 && sk != 0))
    (match CvtTy.of dt dk, CvtTy.of st sk, Rnd.of f.md with
     | some d, some s, some r => some (.cvt c f.d f.a f.ms d s r)
     | _, _, _ => none)

/-- PACK (R232). SUB bits that must be zero raise MOD (log 49). -/
def decPack (c : Ctl) (f : V3) : Except DecErr Instr :=
  chk (f.cc != 0) (if f.sub.extractLsb' 4 3 != 0 then none else
    match PackTy.of (f.sub.extractLsb' 0 4), Rnd.of f.md with
    | some t, some r =>
      let hi := f.sub.getLsbD 7
      if (hi && !t.byte) || (!t.float && f.md != 0) then none else some (.pack c f.d f.a f.b f.ms t hi r)
    | _, _ => none)

def decUnpack (c : Ctl) (f : V3) : Except DecErr Instr :=
  chk (f.b != 0 || f.cc != 0) (mod0 f (if f.sub.extractLsb' 6 2 != 0 then none else
    match PackTy.of (f.sub.extractLsb' 0 4) with
    | some t =>
      let n := f.sub.extractLsb' 4 2
      if !t.byte && n.getLsbD 1 then none else some (.unpack c f.d f.a f.ms t n)
    | none => none))

/-- Group 0b00, opcodes 0x060 to 0x07C (R231 to R237). -/
def decVCross (op : Nat) (c : Ctl) (f : V3) : Except DecErr Instr :=
  match op with
  | 0x060 => decCvt c f
  | 0x061 => decPack c f
  | 0x062 => decUnpack c f
  | 0x070 => chk (f.cc != 0) (dShf f (.shfl c f.d f.a f.b f.ms))
  | 0x071 => chk (f.b != 0 || cBad f.cc) (dShf f (.shflup c f.d f.a (cOf f.cc) f.ms))
  | 0x072 => chk (f.b != 0 || cBad f.cc) (dShf f (.shfldn c f.d f.a (cOf f.cc) f.ms))
  | 0x073 => chk (f.b != 0 || cBad f.cc) (dShf f (.shflx c f.d f.a (cOf f.cc) f.ms))
  | 0x074 =>
    if f.sub.getLsbD 6 then
      chk (sBad f.b || f.cc != 0)
        (dShf { f with sub := f.sub.extractLsb' 7 1 ++ (0 : BitVec 1) ++ f.sub.extractLsb' 0 6 } (.bcast c f.d f.a (.reg (sOf f.b)) f.ms))
    else chk (f.b != 0 || cBad f.cc) (dShf f (.bcast c f.d f.a (.imm (cOf f.cc)) f.ms))
  | 0x075 => chk (f.b != 0 || f.cc != 0) (mod0 f (noU f (dRed f (fun g _ => .vredadd c f.d f.a f.ms g))))
  | 0x076 => chk (f.b != 0 || f.cc != 0) (mod0 f (dRed f (.vredmin c f.d f.a f.ms)))
  | 0x077 => chk (f.b != 0 || f.cc != 0) (mod0 f (dRed f (.vredmax c f.d f.a f.ms)))
  | 0x078 => chk (f.b != 0 || f.cc != 0) ((Rnd.of f.md).bind (fun r => noU f (dRed f (fun g _ => .fredadd c f.d f.a f.ms g r))))
  | 0x079 => chk (f.b != 0 || f.cc != 0) (mod0 f (noU f (dRed f (fun g _ => .fredmin c f.d f.a f.ms g))))
  | 0x07A => chk (f.b != 0 || f.cc != 0) (mod0 f (noU f (dRed f (fun g _ => .fredmax c f.d f.a f.ms g))))
  | 0x07B => chk (f.b != 0 || f.cc != 0) (mod0 f (dRed f (.vscan c f.d f.a f.ms)))
  | 0x07C => chk (f.b != 0 || f.cc != 0) ((Rnd.of f.md).bind (fun r => dRed f (fun g e => .fscan c f.d f.a f.ms g e r)))
  | _ => .error .opcode

/-- VTOS and VINS: the lane index is C[5:0], or scalar B with SUB[6] (R238). -/
def dSel (f : V3) (i : Instr ⊕ (LaneSel → Instr)) : Except DecErr Instr :=
  match i with
  | .inl i => .ok i
  | .inr k =>
    if f.sub.getLsbD 6 then chk (sBad f.b || f.cc != 0) (mod0 f (if f.sub.extractLsb' 0 6 != 0 then none else some (k (.reg (sOf f.b)))))
    else chk (f.b != 0 || cBad f.cc) (mod0 f (if f.sub.extractLsb' 0 6 != 0 then none else some (k (.imm (cOf f.cc)))))

/-- Group 0b00, opcodes 0x080 to 0x093 (R238 to R241). -/
def decVMove (op : Nat) (c : Ctl) (f : V3) : Except DecErr Instr :=
  match op with
  | 0x080 => chk (sBad f.a || f.b != 0 || f.cc != 0) (plain f (.vfroms c f.d (sOf f.a) f.ms))
  | 0x081 => if sBad f.d then .error .reserved else
      dSel f (.inr (fun l => .vtos c (sOf f.d) f.a l f.ms (f.sub.getLsbD 7)))
  | 0x082 => if sBad f.a then .error .reserved else
      if f.sub.getLsbD 7 then
        (if (if f.sub.getLsbD 6 then sBad f.b || f.cc != 0 else f.b != 0 || cBad f.cc) then .error .reserved else .error .modv)
      else dSel f (.inr (fun l => .vins c f.d (sOf f.a) l f.ms))
  | 0x090 => chk (dBad f.d || sBad f.a || sBad f.b || sBad f.cc || f.ms != 0)
      (mod0 f (if f.sub.extractLsb' 3 4 != 0 then none else
        some (.sbind c (dOf f.d) (sOf f.a) (sOf f.b) (sOf f.cc) (f.sub.getLsbD 7) (f.sub.extractLsb' 0 3))))
  | 0x091 => chk (dBad f.d || f.a != 0 || f.b != 0 || f.cc != 0 || f.ms != 0) (plain f (.sunbind c (dOf f.d)))
  | 0x092 => chk (dBad f.d || sBad f.a || f.b != 0 || f.cc != 0 || f.ms != 0)
      (mod0 f ((boolOf f.sub).map (.sseek c (dOf f.d) (sOf f.a))))
  | 0x093 => chk (sBad f.d || dBad f.a || f.b != 0 || f.cc != 0 || f.ms != 0)
      (mod0 f ((SposField.of f.sub).map (.spos c (sOf f.d) (dOf f.a))))
  | _ => .error .opcode

/-! Group 0b01, M format (R182, R242). -/

def mfBad (f : MF) : Bool := f.wid.extractLsb' 1 2 == 3 || f.sc.extractLsb' 2 1 != 0 || f.sp.extractLsb' 1 1 != 0
/-- A vector memory operand. -/
def memV (f : MF) : MemV :=
  ⟨sOf f.base, if f.idx = 255 then none else some f.idx, f.off, f.sp.getLsbD 0, SC.of f.sc, f.ms⟩
def memS (f : MF) : MemS := ⟨sOf f.base, f.off, f.sp.getLsbD 0, SC.of f.sc⟩
/-- Reserved bits of a vector access and of a scalar access. -/
def vBad (f : MF) : Bool := mfBad f || sBad f.base
def scBad (f : MF) : Bool := mfBad f || sBad f.base || f.idx != 255 || f.ms != 0

/-- ATOM and RED: .32 or .64; registers a pair or a CAS needs must exist, which is a limit of .64 and of CAS.32 (R182, R248). -/
def decAtom (f : MF) (cas : Bool) (k : VIdx → MemV → Bool → Instr) : Except DecErr Instr :=
  let lim : Nat := if f.wid = 5 then (if cas then 252 else 254) else if cas && f.wid == 4 then 254 else 255
  chk (vBad f || lim < f.d.toNat) ((wid64Of f.wid).map (k f.d (memV f)))
def decFatom (f : MF) (k : VIdx → MemV → Instr) : Except DecErr Instr :=
  chk (vBad f || (f.wid == 5 && f.d == 255)) (if f.wid = 4 then some (k f.d (memV f)) else none)
/-- Barrier objects: scratchpad, no index, no mask, no hint (R254). -/
def barBad (f : MF) : Bool :=
  mfBad f || sBad f.base || sBad f.d || f.idx != 255 || f.ms != 0 || f.sp != 1 || f.sc != 0

/-- The memory instructions (R187, R243 to R256). FATOM.MAX is 0x032, as R187 and R250 have it; the encoding printed in spec/14 (OP 0x031, the
word 0x4310300028100000) is FATOM.MIN's (log 22). -/
def decMem (op : Nat) (c : Ctl) (f : MF) : Except DecErr Instr :=
  match op with
  | 0x000 => chk (vBad f || (f.wid == 5 && f.d == 255)) ((Wid.of f.wid).map (.ld c f.d (memV f)))
  | 0x001 => chk (vBad f || (f.wid == 5 && f.d == 255))
      ((Wid.of f.wid).bind (fun w => if w.signed then none else some (.st c f.d (memV f) w)))
  | 0x002 => chk (scBad f || sBad f.d) ((Wid.of f.wid).map (.ldsc c (sOf f.d) (memS f)))
  | 0x003 => chk (scBad f || sBad f.d)
      ((Wid.of f.wid).bind (fun w => if w.signed then none else some (.stsc c (sOf f.d) (memS f) w)))
  | 0x004 => chk (vBad f || f.d != 0) ((Wid.of f.wid).map (.pref c (memV f)))
  | 0x010 => decAtom f false (.atomAdd c)
  | 0x011 => decAtom f false (.atomSub c)
  | 0x012 => decAtom f false (.atomAnd c)
  | 0x013 => decAtom f false (.atomOr c)
  | 0x014 => decAtom f false (.atomXor c)
  | 0x015 => decAtom f false (.atomMin c)
  | 0x016 => decAtom f false (.atomMax c)
  | 0x017 => decAtom f false (.atomMinn c)
  | 0x018 => decAtom f false (.atomMaxn c)
  | 0x019 => decAtom f false (.atomXchg c)
  | 0x01A => decAtom f true (.atomCas c)
  | 0x020 => decAtom f false (.redAdd c)
  | 0x021 => decAtom f false (.redSub c)
  | 0x022 => decAtom f false (.redAnd c)
  | 0x023 => decAtom f false (.redOr c)
  | 0x024 => decAtom f false (.redXor c)
  | 0x025 => decAtom f false (.redMin c)
  | 0x026 => decAtom f false (.redMax c)
  | 0x027 => decAtom f false (.redMinn c)
  | 0x028 => decAtom f false (.redMaxn c)
  | 0x030 => decFatom f (.fatomAdd c)
  | 0x031 => decFatom f (.fatomMin c)
  | 0x032 => decFatom f (.fatomMax c)
  | 0x038 => decFatom f (.fredAdd c)
  | 0x039 => decFatom f (.fredMin c)
  | 0x03A => decFatom f (.fredMax c)
  | 0x040 => chk (scBad f || sBad f.d) ((wid64Of f.wid).map (.ldres c (sOf f.d) (memS f)))
  | 0x041 => chk (scBad f || sBad f.d) ((wid64Of f.wid).map (.stcon c (sOf f.d) (memS f)))
  | 0x050 =>
    if f.d != 0 || f.base != 0 || f.idx != 0 || f.wid != 0 || f.sp != 0 || f.ms != 0 || f.off != 0 then .error .reserved
    else match Scope.of f.sc with
      | some s => .ok (.fence c s)
      | none => .error .reserved
  | 0x060 => chk (barBad f) (if f.wid = 0 then some (.barinit c (sOf f.d) (sOf f.base) f.off) else none)
  | 0x061 => chk (barBad f || f.d != 0) (if f.wid = 0 then some (.bararr c (sOf f.base) f.off) else none)
  | 0x062 => chk (barBad f) (if f.wid = 0 then some (.barexp c (sOf f.d) (sOf f.base) f.off) else none)
  | 0x063 => chk (barBad f) (if f.wid = 0 then some (.barwait c (sOf f.d) (sOf f.base) f.off) else none)
  | 0x064 => chk (barBad f) (if f.wid = 0 then some (.bartest c (sOf f.d) (sOf f.base) f.off false)
      else if f.wid = 1 then some (.bartest c (sOf f.d) (sOf f.base) f.off true) else none)
  | 0x080 => chk (scBad f || sBad f.d || f.wid != 0 || f.sc != 0 || f.sp != 0)
      (some (.publish c (sOf f.d) (sOf f.base) f.off))
  | _ => .error .opcode

/-- BSYNC, GSYNC and LSYNC: SR with every field zero (R256). -/
def decSync (op : Nat) (c : Ctl) (f : V3) : Except DecErr Instr :=
  let bad := f.d != 0 || f.a != 0 || f.b != 0 || f.cc != 0 || f.ms != 0
  match op with
  | 0x070 => chk bad (plain f (.bsync c))
  | 0x071 => chk bad (plain f (.gsync c))
  | 0x072 => chk bad (plain f (.lsync c))
  | _ => .error .opcode

/-! Group 0b01, T format (R260 to R275). -/

def tdZ (f : TF) : Bool := f.td != 0
def taZ (f : TF) : Bool := f.ta != 0
def hZ (f : TF) : Bool := f.h != 0

def decTile (op : Nat) (c : Ctl) (f : TF) : Except DecErr Instr :=
  let v := f.imm.extractLsb' 4 8
  let row := f.imm.extractLsb' 0 4
  match op with
  | 0x100 => chk (tBad f.td || taZ f || hZ f || f.aux.extractLsb' 2 2 != 0 || v != 0) ((TKind.of f.aux row).map (.tdef c (tOf f.td)))
  | 0x101 => chk (tdZ f || taZ f || f.h == 0 || f.aux.extractLsb' 2 2 != 0 || v != 0) ((TKind.of f.aux row).map (.tnew c f.h))
  | 0x102 => chk (tBad f.td || taZ f || hZ f || f.aux != 0) (some (.twrite c (tOf f.td) v row))
  | 0x103 => chk (tBad f.td || taZ f || hZ f || f.aux != 0 || f.imm != 0) (some (.tseal c (tOf f.td)))
  | 0x104 => chk (tdZ f || tBad f.ta || hZ f || f.aux != 0) (some (.tread c v (tOf f.ta) row))
  | 0x105 => chk (tdZ f || tBad f.ta || hZ f || f.aux != 0 || f.imm != 0) (some (.tkill c (tOf f.ta)))
  | 0x106 => chk (tdZ f || tBad f.ta || f.h == 0 || f.aux != 0 || f.imm != 0) (some (.tstat c f.h (tOf f.ta)))
  | 0x107 => chk (tBad f.td || taZ f || f.h == 0 || f.h == 63 || f.aux.extractLsb' 1 3 != 0)
      ((TLoadForm.of f.imm).map (.tload c (tOf f.td) f.h (f.aux.getLsbD 0)))
  | 0x108 => chk (tdZ f || tBad f.ta || f.h == 0 || f.h == 63 || f.aux.extractLsb' 1 3 != 0)
      (if f.imm = 0 then some (.tstore c (tOf f.ta) f.h (f.aux.getLsbD 0) false)
       else if f.imm = 1 then some (.tstore c (tOf f.ta) f.h (f.aux.getLsbD 0) true) else none)
  | 0x110 => chk (tdZ f || taZ f || f.h == 0 || f.aux.extractLsb' 3 1 != 0 || f.imm != 0)
      (let k := EngClass.of (f.aux.extractLsb' 0 2); let sh := f.aux.getLsbD 2
       if sh && k != .mx then none else some (.lease c f.h k sh))
  | 0x111 => chk (tdZ f || taZ f || f.h == 0 || f.aux.extractLsb' 3 1 != 0 || f.imm != 0)
      (let k := EngClass.of (f.aux.extractLsb' 0 2); let sh := f.aux.getLsbD 2
       if sh && k != .mx then none else some (.leaset c f.h k sh))
  | 0x112 => chk (tdZ f || taZ f || f.h == 0 || f.aux != 0 || f.imm != 0) (some (.vacate c f.h))
  | 0x113 => chk (tdZ f || taZ f || f.h == 0 || f.aux != 0 || f.imm.extractLsb' 7 5 != 0)
      (some (.lstat c (f.imm.extractLsb' 0 7) f.h))
  | _ => .error .opcode

def dmOf (aux : BitVec 4) : DmCtl := ⟨aux.getLsbD 0, aux.getLsbD 1, aux.getLsbD 3⟩
def dmAux (k : DmCtl) : BitVec 4 := BitVec.ofBool k.bar ++ (0 : BitVec 1) ++ BitVec.ofBool k.spd ++ BitVec.ofBool k.sps

def decEng (op : Nat) (c : Ctl) (f : TF) : Except DecErr Instr :=
  let hb := f.h == 0
  match op with
  | 0x120 => chk (tdZ f || tBad f.ta || hb || f.aux != 0 || f.imm.extractLsb' 10 2 != 0)
      ((BFmt.of (f.imm.extractLsb' 7 3)).map (.mxloadb c f.h (tOf f.ta) (f.imm.extractLsb' 0 4) (f.imm.extractLsb' 4 3)))
  | 0x121 => chk (tdZ f || tBad f.ta || hb || f.imm.extractLsb' 9 3 != 0)
      ((AFmt.of (f.imm.extractLsb' 0 3) (f.imm.extractLsb' 3 4)).map (.mxrun c f.h (tOf f.ta) f.aux (f.imm.extractLsb' 7 2)))
  | 0x122 => chk (tBad f.td || taZ f || hb || f.aux.extractLsb' 0 3 != 0 || f.imm.extractLsb' 4 3 != 0 || f.imm.extractLsb' 9 3 != 0)
      (some (.mxdrain c (tOf f.td) f.h (f.imm.extractLsb' 0 3) (f.imm.extractLsb' 7 2) (f.imm.getLsbD 3) (f.aux.getLsbD 3)))
  | 0x123 => chk (tdZ f || taZ f || hb || f.aux != 0 || f.imm.extractLsb' 0 7 != 0 || f.imm.extractLsb' 9 3 != 0)
      (some (.mxzero c f.h (f.imm.extractLsb' 7 2)))
  | 0x124 => chk (tdZ f || taZ f || hb || f.aux.extractLsb' 1 3 != 0 || f.imm.extractLsb' 3 4 != 0 || f.imm.extractLsb' 9 3 != 0)
      ((AFmt.of (f.imm.extractLsb' 0 3) 0).map (fun a => .mxconv c f.h (f.imm.extractLsb' 7 2) a (f.aux.getLsbD 0)))
  | 0x125 => chk (tdZ f || taZ f || hb || f.aux != 0 || f.imm != 0) (some (.cvshape c f.h))
  | 0x130 => chk (tdZ f || taZ f || hb || f.aux.getLsbD 2 || f.imm != 0) (some (.dmcopy c f.h (dmOf f.aux)))
  | 0x131 => chk (tdZ f || taZ f || hb || f.aux.getLsbD 2)
      (if 9 < (f.imm.extractLsb' 0 4).toNat then none
       else some (.dmgather c f.h (f.imm.extractLsb' 4 8) (f.imm.extractLsb' 0 4) (dmOf f.aux)))
  | 0x132 => chk (tdZ f || taZ f || hb || f.aux.getLsbD 2)
      (if 9 < (f.imm.extractLsb' 0 4).toNat then none
       else some (.dmscatter c f.h (f.imm.extractLsb' 4 8) (f.imm.extractLsb' 0 4) (dmOf f.aux)))
  | 0x133 => chk (tdZ f || taZ f || hb || f.aux.getLsbD 2 || f.aux.getLsbD 0 || f.imm != 0)
      (some (.dmfill c f.h (f.aux.getLsbD 1) (f.aux.getLsbD 3)))
  | 0x140 => chk (tdZ f || taZ f || hb || f.aux.getLsbD 2 || f.imm.extractLsb' 2 2 != 0)
      (match ClOp.of (f.imm.extractLsb' 0 2), ClTy.of (f.aux.extractLsb' 0 2) with
       | some o, some t => some (.clreduce c f.h (f.imm.extractLsb' 4 8) o t (f.aux.getLsbD 3))
       | _, _ => none)
  | 0x141 => chk (tdZ f || taZ f || hb || f.aux.extractLsb' 0 3 != 0 || f.imm.extractLsb' 0 4 != 0)
      (some (.clgather c f.h (f.imm.extractLsb' 4 8) (f.aux.getLsbD 3)))
  | 0x142 => chk (tdZ f || taZ f || hb || f.aux.extractLsb' 0 3 != 0 || f.imm.extractLsb' 0 4 != 0)
      (some (.clbcast c f.h (f.imm.extractLsb' 4 8) (f.aux.getLsbD 3)))
  | _ => .error .opcode

/-! Group 0b10 (R192 to R217, R276, R329). -/

/-- SR forms: which of A, B, C are scalar fields and which must be zero. -/
def sr3 (f : V3) : Bool := sBad f.d || sBad f.a || sBad f.b || f.cc != 0 || f.ms != 0
def sr2 (f : V3) : Bool := sBad f.d || sBad f.a || f.b != 0 || f.cc != 0 || f.ms != 0
def dSSS (f : V3) (k : SIdx → SIdx → SIdx → Instr) : Except DecErr Instr :=
  chk (sr3 f) (plain f (k (sOf f.d) (sOf f.a) (sOf f.b)))
def dSSSu (f : V3) (k : SIdx → SIdx → SIdx → Bool → Instr) : Except DecErr Instr :=
  chk (sr3 f) (mod0 f ((boolOf f.sub).map (k (sOf f.d) (sOf f.a) (sOf f.b))))
def dSS (f : V3) (k : SIdx → SIdx → Instr) : Except DecErr Instr :=
  chk (sr2 f) (plain f (k (sOf f.d) (sOf f.a)))
def dMMM (f : V3) (k : MIdx → MIdx → MIdx → Instr) : Except DecErr Instr :=
  chk (mBad f.d || mBad f.a || mBad f.b || f.cc != 0 || f.ms != 0) (plain f (k (mOf f.d) (mOf f.a) (mOf f.b)))
def dMM (f : V3) (k : MIdx → MIdx → Instr) : Except DecErr Instr :=
  chk (mBad f.d || mBad f.a || f.b != 0 || f.cc != 0 || f.ms != 0) (plain f (k (mOf f.d) (mOf f.a)))
def d0 (f : V3) (i : Instr) : Except DecErr Instr :=
  chk (f.d != 0 || f.a != 0 || f.b != 0 || f.cc != 0 || f.ms != 0) (plain f i)

/-- The scalar operations (R194 to R196). The SUB bits that must be zero beside the immediate of SBFX and SBFI raise RESERVED (log 49). -/
def decScalar (op : Nat) (c : Ctl) (f : V3) : Except DecErr Instr :=
  match op with
  | 0x020 => dSSS f (.sadd c)
  | 0x021 => dSSS f (.ssub c)
  | 0x022 => dSSS f (.smul c)
  | 0x023 => dSSSu f (.smulh c)
  | 0x024 => dSSSu f (.sdiv c)
  | 0x025 => dSSSu f (.srem c)
  | 0x026 => dSSS f (.sand c)
  | 0x027 => dSSS f (.sor c)
  | 0x028 => dSSS f (.sxor c)
  | 0x029 => dSSS f (.sshl c)
  | 0x02A => dSSS f (.sshr c)
  | 0x02B => dSSS f (.ssra c)
  | 0x02C => dSSS f (.smin c)
  | 0x02D => dSSS f (.smax c)
  | 0x02E => dSSS f (.sminn c)
  | 0x02F => dSSS f (.smaxn c)
  | 0x030 => chk (sr3 f) (mod0 f ((Pred.of8 f.sub).map (.scmp c (sOf f.d) (sOf f.a) (sOf f.b))))
  | 0x031 => chk (sBad f.d || sBad f.a || sBad f.b || sBad f.cc || f.ms != 0)
      (plain f (.ssel c (sOf f.d) (sOf f.a) (sOf f.b) (sOf f.cc)))
  | 0x032 => dSS f (.smov c)
  | 0x033 => dSS f (.sclz c)
  | 0x034 => dSS f (.spopc c)
  | 0x035 => chk (sBad f.d || sBad f.a || f.b != 0 || cBad f.cc || f.ms != 0 || f.sub.getLsbD 6)
      (mod0 f (some (.sbfx c (sOf f.d) (sOf f.a) (f.sub.extractLsb' 0 6) (cOf f.cc) (f.sub.getLsbD 7))))
  | 0x036 => chk (sBad f.d || sBad f.a || f.b != 0 || cBad f.cc || f.ms != 0 || f.sub.getLsbD 6 || f.sub.getLsbD 7)
      (mod0 f (some (.sbfi c (sOf f.d) (sOf f.a) (f.sub.extractLsb' 0 6) (cOf f.cc))))
  | _ => .error .opcode

def decScalarImm (op : Nat) (c : Ctl) (f : SI) : Except DecErr Instr :=
  let da := sBad f.d || sBad f.a
  let sh := da || f.imm.extractLsb' 6 26 != 0
  let n := f.imm.extractLsb' 0 6
  match op with
  | 0x040 => chk da (some (.saddi c (sOf f.d) (sOf f.a) f.imm))
  | 0x041 => chk da (some (.sandi c (sOf f.d) (sOf f.a) f.imm))
  | 0x042 => chk da (some (.sori c (sOf f.d) (sOf f.a) f.imm))
  | 0x043 => chk da (some (.sxori c (sOf f.d) (sOf f.a) f.imm))
  | 0x044 => chk sh (some (.sshli c (sOf f.d) (sOf f.a) n))
  | 0x045 => chk sh (some (.sshri c (sOf f.d) (sOf f.a) n))
  | 0x046 => chk sh (some (.ssrai c (sOf f.d) (sOf f.a) n))
  | 0x047 => chk (sBad f.d || f.a != 0) (some (.smovi c (sOf f.d) f.imm))
  | 0x048 => chk (sBad f.d || f.a != 0) (some (.shii c (sOf f.d) f.imm))
  | 0x049 => chk da ((Pred.of (f.imm.extractLsb' 28 4)).map (fun p => .scmpi c (sOf f.d) (sOf f.a) p (f.imm.extractLsb' 0 28)))
  | _ => .error .opcode

def decMask (op : Nat) (c : Ctl) (f : V3) : Except DecErr Instr :=
  match op with
  | 0x050 => dMMM f (.mand c)
  | 0x051 => dMMM f (.mor c)
  | 0x052 => dMMM f (.mxor c)
  | 0x053 => dMMM f (.mandn c)
  | 0x054 => dMM f (.mnot c)
  | 0x055 => dMM f (.mmov c)
  | 0x056 => chk (sBad f.d || mBad f.a || f.b != 0 || f.cc != 0 || f.ms != 0) (plain f (.mcnt c (sOf f.d) (mOf f.a)))
  | 0x057 => chk (sBad f.d || mBad f.a || f.b != 0 || f.cc != 0 || f.ms != 0) (plain f (.mfirst c (sOf f.d) (mOf f.a)))
  | 0x058 => chk (mBad f.d || sBad f.a || f.b != 0 || f.cc != 0 || f.ms != 0) (plain f (.mfroms c (mOf f.d) (sOf f.a)))
  | 0x059 => chk (sBad f.d || mBad f.a || f.b != 0 || f.cc != 0 || f.ms != 0) (plain f (.mtos c (sOf f.d) (mOf f.a)))
  | _ => .error .opcode

/-- CSR numbers whose write is a row of its own: INBOX and INVSTATE; and the VOTE register of WRPR. -/
def csrInbox : BitVec 12 := 0x014
def csrInvstate : BitVec 12 := 0x042
def prVote : BitVec 12 := 0x122

/-- Opcodes 0x000 to 0x01A, SR forms. -/
def decCtlR (op : Nat) (c : Ctl) (f : V3) : Except DecErr Instr :=
  match op with
  | 0x000 => d0 f (.nop c)
  | 0x001 => dSS f (.pass c)
  | 0x003 =>
    chk (sBad f.d || sBad f.a || sBad f.b || 124 < f.b.toNat || f.ms != 0 || (f.sub == 0 && f.cc != 0))
      (mod0 f (if f.sub = 0 then some (.passx c (sOf f.d) (sOf f.a) (sOf f.b) none)
        else if f.sub = 1 then some (.passx c (sOf f.d) (sOf f.a) (sOf f.b) (some f.cc)) else none))
  | 0x004 => chk (sBad f.d || f.a != 0 || f.b != 0 || f.cc != 0 || f.ms != 0) (plain f (.passf c (sOf f.d)))
  | 0x005 => chk (f.d != 0 || sBad f.a || f.b != 0 || f.cc != 0 || f.ms != 0) (plain f (.setfs c (sOf f.a)))
  | 0x006 => d0 f (.exit c)
  | 0x007 => chk (f.d != 0 || sBad f.a || f.b != 0 || f.cc != 0 || f.ms != 0) (plain f (.exitp c (sOf f.a)))
  | 0x00B => chk (sBad f.d || f.a != 0 || f.b != 0 || f.cc != 0 || f.ms != 0) (plain f (.gtime c (sOf f.d)))
  | 0x018 => d0 f (.ret c)
  | 0x01A => d0 f (.join c)
  | _ => .error .opcode

/-- Opcodes 0x000 to 0x019, SI and C forms. -/
def decCtlI (op : Nat) (c : Ctl) (f : SI) : Except DecErr Instr :=
  let n12 := f.imm.extractLsb' 0 12
  let hi20 := f.imm.extractLsb' 12 20 != 0
  match op with
  | 0x002 => chk (sBad f.d || f.a != 0 || f.imm.extractLsb' 5 27 != 0) (some (.passi c (sOf f.d) (f.imm.extractLsb' 0 5)))
  | 0x008 => chk (sBad f.d || f.a != 0 || hi20) (some (.csrrd c (sOf f.d) n12))
  | 0x009 => chk (f.d != 0 || sBad f.a || hi20)
      (some (if n12 = csrInbox then .inboxClear c (sOf f.a) else if n12 = csrInvstate then .invstateAbandon c (sOf f.a)
        else .csrwr c n12 (sOf f.a)))
  | 0x00A => chk (f.d != 0 || f.a != 0 || hi20)
      (if f.imm.extractLsb' 6 6 = 0 then none else some (.waitc c (f.imm.extractLsb' 6 6) (f.imm.extractLsb' 0 6)))
  | 0x00C => chk (f.d != 0 || f.a != 0 || f.imm.extractLsb' 17 15 != 0 || (f.imm.getLsbD 16 && f.imm.extractLsb' 0 16 != 0))
      (some (if f.imm.getLsbD 16 then .trapLazy c else .trap c (f.imm.extractLsb' 0 16)))
  | 0x00D => chk (f.d != 0 || f.a != 0 || f.imm.extractLsb' 16 16 != 0) (some (.brk c (f.imm.extractLsb' 0 16)))
  | 0x010 => chk (f.d != 0 || f.a != 0) (some (.br c f.imm))
  | 0x011 => chk (sBad f.d || f.a != 0) (some (.brz c (sOf f.d) f.imm))
  | 0x012 => chk (sBad f.d || f.a != 0) (some (.brnz c (sOf f.d) f.imm))
  | 0x013 => chk (mBad f.d || f.a != 0) (some (.brnone c (mOf f.d) f.imm))
  | 0x014 => chk (mBad f.d || f.a != 0) (some (.brany c (mOf f.d) f.imm))
  | 0x015 => chk (mBad f.d || f.a != 0) (some (.brall c (mOf f.d) f.imm))
  | 0x016 => chk (f.d != 0 || f.a != 0) (some (.call c f.imm))
  | 0x017 => chk (f.imm != 0) (some (.calli c f.d f.a))
  | 0x019 => chk (mBad f.d || f.a != 0) (some (.split c (mOf f.d) f.imm))
  | _ => .error .opcode

/-- INV (R276). -/
def invBad (f : PF) : Bool :=
  f.zero != 0 || f.br.getLsbD 0 || f.x == 255 || f.y == f.x || f.y == f.x + 1 || f.tgt == f.x || f.tgt == f.x + 1 ||
  f.y == f.tgt || (f.mode == 1 && f.tol != 0)
def decInv (c : Ctl) (f : PF) : Except DecErr Instr :=
  chk (invBad f) (some (.inv c ⟨f.x, f.y, f.tgt, f.br.getLsbD 1, f.tol, f.ms, f.maxit, f.mode == 1, f.nt == 1⟩))

/-- Privileged opcodes (R329). -/
def decPriv (op : Nat) (c : Ctl) (f : V3) (g : SI) : Except DecErr Instr :=
  let n12 := g.imm.extractLsb' 0 12
  let hi20 := g.imm.extractLsb' 12 20 != 0
  match op with
  | 0x080 => chk (sBad g.d || g.a != 0 || hi20) (some (.rdpr c (sOf g.d) n12))
  | 0x081 => chk (g.d != 0 || sBad g.a || hi20)
      (some (if n12 = prVote then .voteWrite c (sOf g.a) else .wrpr c n12 (sOf g.a)))
  | 0x082 => d0 f (.tret c)
  | 0x083 => d0 f (.haltg c)
  | 0x084 => d0 f (.resumeg c)
  | 0x085 => dSS f (.shsave c)
  | 0x086 => dSS f (.shrest c)
  | 0x087 => chk (f.d != 0 || sBad f.a || f.b != 0 || f.cc != 0 || f.ms != 0) (mod0 f ((TlbOp.of f.sub).map (fun o => .tlbinv c o (sOf f.a))))
  | 0x088 => dSS f (.evict c)
  | 0x089 => chk (f.d != 0 || sBad f.a || f.b != 0 || f.cc != 0 || f.ms != 0) (plain f (.ctrsel c (sOf f.a)))
  | 0x08A => dSSS f (.aszrec c)
  | 0x08B => chk (f.d != 0 || sBad f.a || f.b != 0 || f.cc != 0 || f.ms != 0) (plain f (.tabort c (sOf f.a)))
  | 0x08C => chk (sr2 f) (mod0 f (if f.sub = 0 then some (.warpctlStat c (sOf f.d) (sOf f.a))
      else if f.sub = 1 then some (.warpctlKill c (sOf f.d) (sOf f.a)) else none))
  | _ => .error .opcode

/-- Whether an opcode of group 0b10 is privileged (R188). -/
def isPriv (w : Word) : Bool := wG w == 2 && 0x080 ≤ (wOp w).toNat && (wOp w).toNat ≤ 0x08C

/-- A 64-bit word at a body position (R173, R178, R187, R188). -/
def decode (w : Word) : Except DecErr Instr :=
  let c := wCtl w
  let op := (wOp w).toNat
  let m := wMid w
  let l := wLo w
  if wG w = 0 then
    if op < 0x020 then decVInt op c (V3.of m l)
    else if op < 0x040 then decVImm op c (VI.of m l)
    else if op < 0x060 then decVFloat op c (V3.of m l)
    else if op < 0x080 then decVCross op c (V3.of m l)
    else decVMove op c (V3.of m l)
  else if wG w = 1 then
    if op < 0x070 then decMem op c (MF.of m l)
    else if op < 0x080 then decSync op c (V3.of m l)
    else if op < 0x100 then decMem op c (MF.of m l)
    else if op < 0x120 then decTile op c (TF.of m l)
    else decEng op c (TF.of m l)
  else if wG w = 2 then
    if op = 0x002 || (0x008 ≤ op && op ≤ 0x00A) || (0x00C ≤ op && op ≤ 0x017) || op = 0x019 then decCtlI op c (SI.of m l)
    else if op < 0x020 then decCtlR op c (V3.of m l)
    else if op < 0x040 then decScalar op c (V3.of m l)
    else if op < 0x050 then decScalarImm op c (SI.of m l)
    else if op < 0x060 then decMask op c (V3.of m l)
    else if op = 0x060 then decInv c (PF.of m l)
    else decPriv op c (V3.of m l) (SI.of m l)
  else .error .opcode

/-- Whether a word's opcode is unassigned (R188). -/
def unassigned (w : Word) : Bool :=
  match decode w with
  | .error .opcode => true
  | _ => false

/-- A first parcel whose bits 15:14 are 0b11 is a dictionary code (R173, R184). -/
def isDictCode (p : Parcel) : Bool := p.extractLsb' 14 2 == 3
def decodeDict (p : Parcel) : Instr := .dictionaryCode (p.extractLsb' 10 4) (p.extractLsb' 0 10)

/-- A decoded item of a body: its instruction, or the check it fails; a word of unassigned opcode is its own row. -/
def decodeBody (w : Word) : Except DecErr Instr :=
  match decode w with
  | .error .opcode => .ok (.unassignedOpcode w)
  | r => r

/-- Four parcels as one 64-bit word, the first holding bits 63:48 (R4). -/
def wordOfParcels (p0 p1 p2 p3 : Parcel) : Word := p0 ++ p1 ++ p2 ++ p3
def parcelsOfWord (w : Word) : List Parcel :=
  [w.extractLsb' 48 16, w.extractLsb' 32 16, w.extractLsb' 16 16, w.extractLsb' 0 16]

/-- A body position's parcels: one instruction and how many parcels it takes. -/
def decodeParcels : List Parcel → Option (Instr × Nat)
  | [] => none
  | p0 :: rest =>
    if isDictCode p0 then some (decodeDict p0, 1)
    else match rest with
      | p1 :: p2 :: p3 :: _ =>
        match decodeBody (wordOfParcels p0 p1 p2 p3) with
        | .ok i => some (i, 4)
        | .error _ => none
      | _ => none

/-- Parcel k of an instruction whose bits are numbered from the first word up. -/
def tableParcel (w k : Nat) : Parcel := BitVec.ofNat 16 (w / 2 ^ (16 * k))

/-- The instruction the decoder reads from bits w, numbered as the opcode table numbers them: bit 0 is the least
significant bit of the first parcel. Bits above nbits are zero. -/
def decodeTableWord (nbits w : Nat) : Option Instr :=
  let v := w % 2 ^ nbits
  (decodeParcels [tableParcel v 0, tableParcel v 1, tableParcel v 2, tableParcel v 3]).map (·.1)

/-! ## Encoding -/

def eV (op : BitVec 10) (c : Ctl) (f : V3) : Word := packWord 0 op f.mid c f.lo
def eVI (op : BitVec 10) (c : Ctl) (f : VI) : Word := packWord 0 op f.mid c f.lo
def eM (op : BitVec 10) (c : Ctl) (f : MF) : Word := packWord 1 op f.mid c f.off
def eSync (op : BitVec 10) (c : Ctl) : Word := packWord 1 op 0 c 0
def eT (op : BitVec 10) (c : Ctl) (f : TF) : Word := packWord 1 op f.mid c f.imm
def eR (op : BitVec 10) (c : Ctl) (f : V3) : Word := packWord 2 op f.mid c f.lo
def eI (op : BitVec 10) (c : Ctl) (f : SI) : Word := packWord 2 op f.mid c f.lo
def eP (op : BitVec 10) (c : Ctl) (f : PF) : Word := packWord 2 op f.mid c f.lo

def eMV (op : BitVec 10) (c : Ctl) (d : BitVec 8) (m : MemV) (wid : BitVec 3) : Word :=
  eM op c ⟨d, s8 m.base, m.idx.getD 255, wid, m.sc.code, (0 : BitVec 1) ++ BitVec.ofBool m.sp, m.ms, m.off⟩
def eMS (op : BitVec 10) (c : Ctl) (d : SIdx) (m : MemS) (wid : BitVec 3) : Word :=
  eM op c ⟨s8 d, s8 m.base, 255, wid, m.sc.code, (0 : BitVec 1) ++ BitVec.ofBool m.sp, 0, m.off⟩
def eBar (op : BitVec 10) (c : Ctl) (d base : SIdx) (off : BitVec 12) (wid : BitVec 3) : Word :=
  eM op c ⟨s8 d, s8 base, 255, wid, 0, 1, 0, off⟩
def selB : LaneSel → BitVec 8
  | .reg s => s8 s
  | .imm _ => 0
def selC : LaneSel → BitVec 8
  | .reg _ => 0
  | .imm n => c8 n
def selS : LaneSel → BitVec 1
  | .reg _ => 1
  | .imm _ => 0
def vosF : VOrS → BitVec 8
  | .v r => r
  | .s r => s8 r

/-- The word of an instruction; `none` for a dictionary code (16 bits) and for a happening. -/
def encode : Instr → Option Word
  | .vadd c d a b ms m => some (eV 0x000 c ⟨d, a, b, 0, ms, 0, m.code⟩)
  | .vsub c d a b ms m => some (eV 0x001 c ⟨d, a, b, 0, ms, 0, m.code⟩)
  | .vmul c d a b ms => some (eV 0x002 c ⟨d, a, b, 0, ms, 0, 0⟩)
  | .vmulh c d a b ms u => some (eV 0x003 c ⟨d, a, b, 0, ms, 0, boolCode u⟩)
  | .vmad c d a b cc ms => some (eV 0x004 c ⟨d, a, b, cc, ms, 0, 0⟩)
  | .vand c d a b ms => some (eV 0x005 c ⟨d, a, b, 0, ms, 0, 0⟩)
  | .vor c d a b ms => some (eV 0x006 c ⟨d, a, b, 0, ms, 0, 0⟩)
  | .vxor c d a b ms => some (eV 0x007 c ⟨d, a, b, 0, ms, 0, 0⟩)
  | .vshl c d a b ms => some (eV 0x008 c ⟨d, a, b, 0, ms, 0, 0⟩)
  | .vshr c d a b ms => some (eV 0x009 c ⟨d, a, b, 0, ms, 0, 0⟩)
  | .vsra c d a b ms => some (eV 0x00A c ⟨d, a, b, 0, ms, 0, 0⟩)
  | .vmin c d a b ms => some (eV 0x00B c ⟨d, a, b, 0, ms, 0, 0⟩)
  | .vmax c d a b ms => some (eV 0x00C c ⟨d, a, b, 0, ms, 0, 0⟩)
  | .vminn c d a b ms => some (eV 0x00D c ⟨d, a, b, 0, ms, 0, 0⟩)
  | .vmaxn c d a b ms => some (eV 0x00E c ⟨d, a, b, 0, ms, 0, 0⟩)
  | .vabs c d a ms m => some (eV 0x00F c ⟨d, a, 0, 0, ms, 0, boolCode m⟩)
  | .vneg c d a ms m => some (eV 0x010 c ⟨d, a, 0, 0, ms, 0, boolCode m⟩)
  | .vclz c d a ms => some (eV 0x011 c ⟨d, a, 0, 0, ms, 0, 0⟩)
  | .vpopc c d a ms => some (eV 0x012 c ⟨d, a, 0, 0, ms, 0, 0⟩)
  | .vcmp c d a b ms p => some (eV 0x013 c ⟨m8 d, a, b, 0, ms, 0, (0 : BitVec 4) ++ p.code⟩)
  | .vsel c d a b cc ms => some (eV 0x014 c ⟨d, a, b, m8 cc, ms, 0, 0⟩)
  | .vmov c (.vv d a) ms => some (eV 0x015 c ⟨d, a, 0, 0, ms, 0, 0⟩)
  | .vmov c (.bv d a) ms => some (eV 0x015 c ⟨b8 d, a, 0, 0, ms, 0, 1⟩)
  | .vmov c (.vb d a) ms => some (eV 0x015 c ⟨d, b8 a, 0, 0, ms, 0, 2⟩)
  | .vlane c d ms => some (eV 0x016 c ⟨d, 0, 0, 0, ms, 0, 0⟩)
  | .vaddi c d a ms i => some (eVI 0x020 c ⟨d, a, ms, i⟩)
  | .vandi c d a ms i => some (eVI 0x021 c ⟨d, a, ms, i⟩)
  | .vori c d a ms i => some (eVI 0x022 c ⟨d, a, ms, i⟩)
  | .vxori c d a ms i => some (eVI 0x023 c ⟨d, a, ms, i⟩)
  | .vshli c d a ms n => some (eVI 0x024 c ⟨d, a, ms, (0 : BitVec 23) ++ n⟩)
  | .vshri c d a ms n => some (eVI 0x025 c ⟨d, a, ms, (0 : BitVec 23) ++ n⟩)
  | .vsrai c d a ms n => some (eVI 0x026 c ⟨d, a, ms, (0 : BitVec 23) ++ n⟩)
  | .vmovi c d ms i => some (eVI 0x027 c ⟨d, 0, ms, i⟩)
  | .vcmpi c d a ms p i => some (eVI 0x028 c ⟨m8 d, a, ms, p.code ++ i⟩)
  | .fadd c d a b ms r => some (eV 0x040 c ⟨d, a, b, 0, ms, r.code, 0⟩)
  | .fsub c d a b ms r => some (eV 0x041 c ⟨d, a, b, 0, ms, r.code, 0⟩)
  | .fmul c d a b ms r => some (eV 0x042 c ⟨d, a, b, 0, ms, r.code, 0⟩)
  | .ffma c d a b cc ms r => some (eV 0x043 c ⟨d, a, b, cc, ms, r.code, 0⟩)
  | .fmin c d a b ms => some (eV 0x044 c ⟨d, a, b, 0, ms, 0, 0⟩)
  | .fmax c d a b ms => some (eV 0x045 c ⟨d, a, b, 0, ms, 0, 0⟩)
  | .fabs c d a ms => some (eV 0x046 c ⟨d, a, 0, 0, ms, 0, 0⟩)
  | .fneg c d a ms => some (eV 0x047 c ⟨d, a, 0, 0, ms, 0, 0⟩)
  | .fcmp c d a b ms p => some (eV 0x048 c ⟨m8 d, a, b, 0, ms, 0, p.code⟩)
  | .fclass c d a ms => some (eV 0x049 c ⟨d, a, 0, 0, ms, 0, 0⟩)
  | .fdiv c d a b ms r => some (eV 0x04A c ⟨d, a, b, 0, ms, r.code, 0⟩)
  | .fsqrt c d a ms r => some (eV 0x04B c ⟨d, a, 0, 0, ms, r.code, 0⟩)
  | .frcp c d a ms => some (eV 0x04C c ⟨d, a, 0, 0, ms, 0, 0⟩)
  | .frsq c d a ms => some (eV 0x04D c ⟨d, a, 0, 0, ms, 0, 0⟩)
  | .fexp2 c d a ms => some (eV 0x04E c ⟨d, a, 0, 0, ms, 0, 0⟩)
  | .flog2 c d a ms => some (eV 0x04F c ⟨d, a, 0, 0, ms, 0, 0⟩)
  | .fsin c d a ms => some (eV 0x050 c ⟨d, a, 0, 0, ms, 0, 0⟩)
  | .fcos c d a ms => some (eV 0x051 c ⟨d, a, 0, 0, ms, 0, 0⟩)
  | .fscale c d a b ms r => some (eV 0x052 c ⟨d, a, b, 0, ms, r.code, 0⟩)
  | .ftanh c d a ms => some (eV 0x053 c ⟨d, a, 0, 0, ms, 0, 0⟩)
  | .hfma2 c d a b cc ms r bf => some (eV 0x054 c ⟨d, a, b, cc, ms, r.code, boolCode bf⟩)
  | .hadd2 c d a b ms r bf => some (eV 0x055 c ⟨d, a, b, 0, ms, r.code, boolCode bf⟩)
  | .hmul2 c d a b ms r bf => some (eV 0x056 c ⟨d, a, b, 0, ms, r.code, boolCode bf⟩)
  | .scacc c d (.v a) b cc ms => some (eV 0x057 c ⟨d, a, vosF b, vosF cc, ms, 0, subScacc (.v a) b cc⟩)
  | .scacc c d (.tile a r) b cc ms => some (eV 0x057 c ⟨d, s8 a, vosF b, vosF cc, ms, 0, subScacc (.tile a r) b cc⟩)
  | .cvt c d a ms dt st r => some (eV 0x060 c ⟨d, a, 0, dt.k ++ st.k, ms, r.code, dt.code ++ st.code⟩)
  | .pack c d a b ms t hi r => some (eV 0x061 c ⟨d, a, b, 0, ms, r.code, BitVec.ofBool hi ++ (0 : BitVec 3) ++ t.code⟩)
  | .unpack c d a ms t n => some (eV 0x062 c ⟨d, a, 0, 0, ms, 0, (0 : BitVec 2) ++ n ++ t.code⟩)
  | .shfl c d a b ms g m => some (eV 0x070 c ⟨d, a, b, 0, ms, 0, subShf g m⟩)
  | .shflup c d a n ms g m => some (eV 0x071 c ⟨d, a, 0, c8 n, ms, 0, subShf g m⟩)
  | .shfldn c d a n ms g m => some (eV 0x072 c ⟨d, a, 0, c8 n, ms, 0, subShf g m⟩)
  | .shflx c d a n ms g m => some (eV 0x073 c ⟨d, a, 0, c8 n, ms, 0, subShf g m⟩)
  | .bcast c d a l ms g m => some (eV 0x074 c ⟨d, a, selB l, selC l, ms, 0, (0 : BitVec 1) ++ selS l ++ (0 : BitVec 1) ++ m.code ++ g.code⟩)
  | .vredadd c d a ms g => some (eV 0x075 c ⟨d, a, 0, 0, ms, 0, subRed g false⟩)
  | .vredmin c d a ms g u => some (eV 0x076 c ⟨d, a, 0, 0, ms, 0, subRed g u⟩)
  | .vredmax c d a ms g u => some (eV 0x077 c ⟨d, a, 0, 0, ms, 0, subRed g u⟩)
  | .fredadd c d a ms g r => some (eV 0x078 c ⟨d, a, 0, 0, ms, r.code, subRed g false⟩)
  | .fredmin c d a ms g => some (eV 0x079 c ⟨d, a, 0, 0, ms, 0, subRed g false⟩)
  | .fredmax c d a ms g => some (eV 0x07A c ⟨d, a, 0, 0, ms, 0, subRed g false⟩)
  | .vscan c d a ms g e => some (eV 0x07B c ⟨d, a, 0, 0, ms, 0, subRed g e⟩)
  | .fscan c d a ms g e r => some (eV 0x07C c ⟨d, a, 0, 0, ms, r.code, subRed g e⟩)
  | .vfroms c d a ms => some (eV 0x080 c ⟨d, s8 a, 0, 0, ms, 0, 0⟩)
  | .vtos c d a l ms sx => some (eV 0x081 c ⟨s8 d, a, selB l, selC l, ms, 0, BitVec.ofBool sx ++ selS l ++ (0 : BitVec 6)⟩)
  | .vins c d a l ms => some (eV 0x082 c ⟨d, s8 a, selB l, selC l, ms, 0, (0 : BitVec 1) ++ selS l ++ (0 : BitVec 6)⟩)
  | .sbind c d a b cc wr e => some (eV 0x090 c ⟨d8 d, s8 a, s8 b, s8 cc, 0, 0, BitVec.ofBool wr ++ (0 : BitVec 4) ++ e⟩)
  | .sunbind c d => some (eV 0x091 c ⟨d8 d, 0, 0, 0, 0, 0, 0⟩)
  | .sseek c d a rel => some (eV 0x092 c ⟨d8 d, s8 a, 0, 0, 0, 0, boolCode rel⟩)
  | .spos c d a x => some (eV 0x093 c ⟨s8 d, d8 a, 0, 0, 0, 0, x.code⟩)
  | .ld c d m w => some (eMV 0x000 c d m w.code)
  | .st c d m w => some (eMV 0x001 c d m w.code)
  | .ldsc c d m w => some (eMS 0x002 c d m w.code)
  | .stsc c d m w => some (eMS 0x003 c d m w.code)
  | .pref c m w => some (eMV 0x004 c 0 m w.code)
  | .atomAdd c d m b => some (eMV 0x010 c d m (wid64 b))
  | .atomSub c d m b => some (eMV 0x011 c d m (wid64 b))
  | .atomAnd c d m b => some (eMV 0x012 c d m (wid64 b))
  | .atomOr c d m b => some (eMV 0x013 c d m (wid64 b))
  | .atomXor c d m b => some (eMV 0x014 c d m (wid64 b))
  | .atomMin c d m b => some (eMV 0x015 c d m (wid64 b))
  | .atomMax c d m b => some (eMV 0x016 c d m (wid64 b))
  | .atomMinn c d m b => some (eMV 0x017 c d m (wid64 b))
  | .atomMaxn c d m b => some (eMV 0x018 c d m (wid64 b))
  | .atomXchg c d m b => some (eMV 0x019 c d m (wid64 b))
  | .atomCas c d m b => some (eMV 0x01A c d m (wid64 b))
  | .redAdd c d m b => some (eMV 0x020 c d m (wid64 b))
  | .redSub c d m b => some (eMV 0x021 c d m (wid64 b))
  | .redAnd c d m b => some (eMV 0x022 c d m (wid64 b))
  | .redOr c d m b => some (eMV 0x023 c d m (wid64 b))
  | .redXor c d m b => some (eMV 0x024 c d m (wid64 b))
  | .redMin c d m b => some (eMV 0x025 c d m (wid64 b))
  | .redMax c d m b => some (eMV 0x026 c d m (wid64 b))
  | .redMinn c d m b => some (eMV 0x027 c d m (wid64 b))
  | .redMaxn c d m b => some (eMV 0x028 c d m (wid64 b))
  | .fatomAdd c d m => some (eMV 0x030 c d m 4)
  | .fatomMin c d m => some (eMV 0x031 c d m 4)
  | .fatomMax c d m => some (eMV 0x032 c d m 4)
  | .fredAdd c d m => some (eMV 0x038 c d m 4)
  | .fredMin c d m => some (eMV 0x039 c d m 4)
  | .fredMax c d m => some (eMV 0x03A c d m 4)
  | .ldres c d m b => some (eMS 0x040 c d m (wid64 b))
  | .stcon c d m b => some (eMS 0x041 c d m (wid64 b))
  | .fence c s => some (eM 0x050 c ⟨0, 0, 0, 0, s.code, 0, 0, 0⟩)
  | .barinit c d b o => some (eBar 0x060 c d b o 0)
  | .bararr c b o => some (eBar 0x061 c 0 b o 0)
  | .barexp c d b o => some (eBar 0x062 c d b o 0)
  | .barwait c d b o => some (eBar 0x063 c d b o 0)
  | .bartest c d b o clr => some (eBar 0x064 c d b o (if clr then 1 else 0))
  | .bsync c => some (eSync 0x070 c)
  | .gsync c => some (eSync 0x071 c)
  | .lsync c => some (eSync 0x072 c)
  | .publish c d b o => some (eM 0x080 c ⟨s8 d, s8 b, 255, 0, 0, 0, 0, o⟩)
  | .tdef c td k => some (eT 0x100 c ⟨t13 td, 0, 0, k.code, (0 : BitVec 8) ++ k.planes⟩)
  | .tnew c h k => some (eT 0x101 c ⟨0, 0, h, k.code, (0 : BitVec 8) ++ k.planes⟩)
  | .twrite c td v r => some (eT 0x102 c ⟨t13 td, 0, 0, 0, v ++ r⟩)
  | .tseal c td => some (eT 0x103 c ⟨t13 td, 0, 0, 0, 0⟩)
  | .tread c v ta r => some (eT 0x104 c ⟨0, t13 ta, 0, 0, v ++ r⟩)
  | .tkill c ta => some (eT 0x105 c ⟨0, t13 ta, 0, 0, 0⟩)
  | .tstat c h ta => some (eT 0x106 c ⟨0, t13 ta, h, 0, 0⟩)
  | .tload c td h sp f => some (eT 0x107 c ⟨t13 td, 0, h, (0 : BitVec 3) ++ BitVec.ofBool sp, f.code⟩)
  | .tstore c ta h sp p => some (eT 0x108 c ⟨0, t13 ta, h, (0 : BitVec 3) ++ BitVec.ofBool sp, if p then 1 else 0⟩)
  | .lease c h k sh => some (eT 0x110 c ⟨0, 0, h, (0 : BitVec 1) ++ BitVec.ofBool sh ++ k.code, 0⟩)
  | .leaset c h k sh => some (eT 0x111 c ⟨0, 0, h, (0 : BitVec 1) ++ BitVec.ofBool sh ++ k.code, 0⟩)
  | .vacate c h => some (eT 0x112 c ⟨0, 0, h, 0, 0⟩)
  | .lstat c d h => some (eT 0x113 c ⟨0, 0, h, 0, (0 : BitVec 5) ++ d⟩)
  | .mxloadb c h ta kb nb f => some (eT 0x120 c ⟨0, t13 ta, h, 0, (0 : BitVec 2) ++ f.code ++ nb ++ kb⟩)
  | .mxrun c h ta n r f => some (eT 0x121 c ⟨0, t13 ta, h, n, (0 : BitVec 3) ++ r ++ f.j ++ f.code⟩)
  | .mxdrain c td h nb r z bar => some (eT 0x122 c ⟨t13 td, 0, h, BitVec.ofBool bar ++ (0 : BitVec 3), (0 : BitVec 3) ++ r ++ (0 : BitVec 3) ++ BitVec.ofBool z ++ nb⟩)
  | .mxzero c h r => some (eT 0x123 c ⟨0, 0, h, 0, (0 : BitVec 3) ++ r ++ (0 : BitVec 7)⟩)
  | .mxconv c h r f sp => some (eT 0x124 c ⟨0, 0, h, (0 : BitVec 3) ++ BitVec.ofBool sp, (0 : BitVec 3) ++ r ++ (0 : BitVec 4) ++ f.code⟩)
  | .cvshape c h => some (eT 0x125 c ⟨0, 0, h, 0, 0⟩)
  | .dmcopy c h k => some (eT 0x130 c ⟨0, 0, h, dmAux k, 0⟩)
  | .dmgather c h v n k => some (eT 0x131 c ⟨0, 0, h, dmAux k, v ++ n⟩)
  | .dmscatter c h v n k => some (eT 0x132 c ⟨0, 0, h, dmAux k, v ++ n⟩)
  | .dmfill c h spd bar => some (eT 0x133 c ⟨0, 0, h, dmAux ⟨false, spd, bar⟩, 0⟩)
  | .clreduce c h t o y bar => some (eT 0x140 c ⟨0, 0, h, BitVec.ofBool bar ++ (0 : BitVec 1) ++ y.code, t ++ (0 : BitVec 2) ++ o.code⟩)
  | .clgather c h t bar => some (eT 0x141 c ⟨0, 0, h, BitVec.ofBool bar ++ (0 : BitVec 3), t ++ (0 : BitVec 4)⟩)
  | .clbcast c h t bar => some (eT 0x142 c ⟨0, 0, h, BitVec.ofBool bar ++ (0 : BitVec 3), t ++ (0 : BitVec 4)⟩)
  | .nop c => some (eR 0x000 c ⟨0, 0, 0, 0, 0, 0, 0⟩)
  | .pass c d a => some (eR 0x001 c ⟨s8 d, s8 a, 0, 0, 0, 0, 0⟩)
  | .passi c d w => some (eI 0x002 c ⟨s8 d, 0, (0 : BitVec 27) ++ w⟩)
  | .passx c d a b none => some (eR 0x003 c ⟨s8 d, s8 a, s8 b, 0, 0, 0, 0⟩)
  | .passx c d a b (some q) => some (eR 0x003 c ⟨s8 d, s8 a, s8 b, q, 0, 0, 1⟩)
  | .passf c d => some (eR 0x004 c ⟨s8 d, 0, 0, 0, 0, 0, 0⟩)
  | .setfs c a => some (eR 0x005 c ⟨0, s8 a, 0, 0, 0, 0, 0⟩)
  | .exit c => some (eR 0x006 c ⟨0, 0, 0, 0, 0, 0, 0⟩)
  | .exitp c a => some (eR 0x007 c ⟨0, s8 a, 0, 0, 0, 0, 0⟩)
  | .csrrd c d n => some (eI 0x008 c ⟨s8 d, 0, (0 : BitVec 20) ++ n⟩)
  | .csrwr c n a => some (eI 0x009 c ⟨0, s8 a, (0 : BitVec 20) ++ n⟩)
  | .inboxClear c a => some (eI 0x009 c ⟨0, s8 a, (0 : BitVec 20) ++ csrInbox⟩)
  | .invstateAbandon c a => some (eI 0x009 c ⟨0, s8 a, (0 : BitVec 20) ++ csrInvstate⟩)
  | .waitc c k n => some (eI 0x00A c ⟨0, 0, (0 : BitVec 20) ++ k ++ n⟩)
  | .gtime c d => some (eR 0x00B c ⟨s8 d, 0, 0, 0, 0, 0, 0⟩)
  | .trap c n => some (eI 0x00C c ⟨0, 0, (0 : BitVec 16) ++ n⟩)
  | .trapLazy c => some (eI 0x00C c ⟨0, 0, (1 : BitVec 16) ++ (0 : BitVec 16)⟩)
  | .brk c n => some (eI 0x00D c ⟨0, 0, (0 : BitVec 16) ++ n⟩)
  | .br c o => some (eI 0x010 c ⟨0, 0, o⟩)
  | .brz c a o => some (eI 0x011 c ⟨s8 a, 0, o⟩)
  | .brnz c a o => some (eI 0x012 c ⟨s8 a, 0, o⟩)
  | .brnone c m o => some (eI 0x013 c ⟨m8 m, 0, o⟩)
  | .brany c m o => some (eI 0x014 c ⟨m8 m, 0, o⟩)
  | .brall c m o => some (eI 0x015 c ⟨m8 m, 0, o⟩)
  | .call c o => some (eI 0x016 c ⟨0, 0, o⟩)
  | .calli c v k => some (eI 0x017 c ⟨v, k, 0⟩)
  | .ret c => some (eR 0x018 c ⟨0, 0, 0, 0, 0, 0, 0⟩)
  | .split c m o => some (eI 0x019 c ⟨m8 m, 0, o⟩)
  | .join c => some (eR 0x01A c ⟨0, 0, 0, 0, 0, 0, 0⟩)
  | .sadd c d a b => some (eR 0x020 c ⟨s8 d, s8 a, s8 b, 0, 0, 0, 0⟩)
  | .ssub c d a b => some (eR 0x021 c ⟨s8 d, s8 a, s8 b, 0, 0, 0, 0⟩)
  | .smul c d a b => some (eR 0x022 c ⟨s8 d, s8 a, s8 b, 0, 0, 0, 0⟩)
  | .smulh c d a b u => some (eR 0x023 c ⟨s8 d, s8 a, s8 b, 0, 0, 0, boolCode u⟩)
  | .sdiv c d a b u => some (eR 0x024 c ⟨s8 d, s8 a, s8 b, 0, 0, 0, boolCode u⟩)
  | .srem c d a b u => some (eR 0x025 c ⟨s8 d, s8 a, s8 b, 0, 0, 0, boolCode u⟩)
  | .sand c d a b => some (eR 0x026 c ⟨s8 d, s8 a, s8 b, 0, 0, 0, 0⟩)
  | .sor c d a b => some (eR 0x027 c ⟨s8 d, s8 a, s8 b, 0, 0, 0, 0⟩)
  | .sxor c d a b => some (eR 0x028 c ⟨s8 d, s8 a, s8 b, 0, 0, 0, 0⟩)
  | .sshl c d a b => some (eR 0x029 c ⟨s8 d, s8 a, s8 b, 0, 0, 0, 0⟩)
  | .sshr c d a b => some (eR 0x02A c ⟨s8 d, s8 a, s8 b, 0, 0, 0, 0⟩)
  | .ssra c d a b => some (eR 0x02B c ⟨s8 d, s8 a, s8 b, 0, 0, 0, 0⟩)
  | .smin c d a b => some (eR 0x02C c ⟨s8 d, s8 a, s8 b, 0, 0, 0, 0⟩)
  | .smax c d a b => some (eR 0x02D c ⟨s8 d, s8 a, s8 b, 0, 0, 0, 0⟩)
  | .sminn c d a b => some (eR 0x02E c ⟨s8 d, s8 a, s8 b, 0, 0, 0, 0⟩)
  | .smaxn c d a b => some (eR 0x02F c ⟨s8 d, s8 a, s8 b, 0, 0, 0, 0⟩)
  | .scmp c d a b p => some (eR 0x030 c ⟨s8 d, s8 a, s8 b, 0, 0, 0, (0 : BitVec 4) ++ p.code⟩)
  | .ssel c d a b cc => some (eR 0x031 c ⟨s8 d, s8 a, s8 b, s8 cc, 0, 0, 0⟩)
  | .smov c d a => some (eR 0x032 c ⟨s8 d, s8 a, 0, 0, 0, 0, 0⟩)
  | .sclz c d a => some (eR 0x033 c ⟨s8 d, s8 a, 0, 0, 0, 0, 0⟩)
  | .spopc c d a => some (eR 0x034 c ⟨s8 d, s8 a, 0, 0, 0, 0, 0⟩)
  | .sbfx c d a p l sg => some (eR 0x035 c ⟨s8 d, s8 a, 0, c8 l, 0, 0, BitVec.ofBool sg ++ (0 : BitVec 1) ++ p⟩)
  | .sbfi c d a p l => some (eR 0x036 c ⟨s8 d, s8 a, 0, c8 l, 0, 0, (0 : BitVec 2) ++ p⟩)
  | .saddi c d a i => some (eI 0x040 c ⟨s8 d, s8 a, i⟩)
  | .sandi c d a i => some (eI 0x041 c ⟨s8 d, s8 a, i⟩)
  | .sori c d a i => some (eI 0x042 c ⟨s8 d, s8 a, i⟩)
  | .sxori c d a i => some (eI 0x043 c ⟨s8 d, s8 a, i⟩)
  | .sshli c d a n => some (eI 0x044 c ⟨s8 d, s8 a, (0 : BitVec 26) ++ n⟩)
  | .sshri c d a n => some (eI 0x045 c ⟨s8 d, s8 a, (0 : BitVec 26) ++ n⟩)
  | .ssrai c d a n => some (eI 0x046 c ⟨s8 d, s8 a, (0 : BitVec 26) ++ n⟩)
  | .smovi c d i => some (eI 0x047 c ⟨s8 d, 0, i⟩)
  | .shii c d i => some (eI 0x048 c ⟨s8 d, 0, i⟩)
  | .scmpi c d a p i => some (eI 0x049 c ⟨s8 d, s8 a, p.code ++ i⟩)
  | .mand c d a b => some (eR 0x050 c ⟨m8 d, m8 a, m8 b, 0, 0, 0, 0⟩)
  | .mor c d a b => some (eR 0x051 c ⟨m8 d, m8 a, m8 b, 0, 0, 0, 0⟩)
  | .mxor c d a b => some (eR 0x052 c ⟨m8 d, m8 a, m8 b, 0, 0, 0, 0⟩)
  | .mandn c d a b => some (eR 0x053 c ⟨m8 d, m8 a, m8 b, 0, 0, 0, 0⟩)
  | .mnot c d a => some (eR 0x054 c ⟨m8 d, m8 a, 0, 0, 0, 0, 0⟩)
  | .mmov c d a => some (eR 0x055 c ⟨m8 d, m8 a, 0, 0, 0, 0, 0⟩)
  | .mcnt c d a => some (eR 0x056 c ⟨s8 d, m8 a, 0, 0, 0, 0, 0⟩)
  | .mfirst c d a => some (eR 0x057 c ⟨s8 d, m8 a, 0, 0, 0, 0, 0⟩)
  | .mfroms c d a => some (eR 0x058 c ⟨m8 d, s8 a, 0, 0, 0, 0, 0⟩)
  | .mtos c d a => some (eR 0x059 c ⟨s8 d, m8 a, 0, 0, 0, 0, 0⟩)
  | .inv c o => some (eP 0x060 c ⟨o.x, o.y, o.tgt, BitVec.ofBool o.hiPair ++ (0 : BitVec 1), o.tol, o.ms, o.maxit,
      BitVec.ofBool o.mode1, BitVec.ofBool o.nt, 0⟩)
  | .rdpr c d n => some (eI 0x080 c ⟨s8 d, 0, (0 : BitVec 20) ++ n⟩)
  | .wrpr c n a => some (eI 0x081 c ⟨0, s8 a, (0 : BitVec 20) ++ n⟩)
  | .voteWrite c a => some (eI 0x081 c ⟨0, s8 a, (0 : BitVec 20) ++ prVote⟩)
  | .tret c => some (eR 0x082 c ⟨0, 0, 0, 0, 0, 0, 0⟩)
  | .haltg c => some (eR 0x083 c ⟨0, 0, 0, 0, 0, 0, 0⟩)
  | .resumeg c => some (eR 0x084 c ⟨0, 0, 0, 0, 0, 0, 0⟩)
  | .shsave c d a => some (eR 0x085 c ⟨s8 d, s8 a, 0, 0, 0, 0, 0⟩)
  | .shrest c d a => some (eR 0x086 c ⟨s8 d, s8 a, 0, 0, 0, 0, 0⟩)
  | .tlbinv c o a => some (eR 0x087 c ⟨0, s8 a, 0, 0, 0, 0, o.code⟩)
  | .evict c d a => some (eR 0x088 c ⟨s8 d, s8 a, 0, 0, 0, 0, 0⟩)
  | .ctrsel c a => some (eR 0x089 c ⟨0, s8 a, 0, 0, 0, 0, 0⟩)
  | .aszrec c d a b => some (eR 0x08A c ⟨s8 d, s8 a, s8 b, 0, 0, 0, 0⟩)
  | .tabort c a => some (eR 0x08B c ⟨0, s8 a, 0, 0, 0, 0, 0⟩)
  | .warpctlStat c d a => some (eR 0x08C c ⟨s8 d, s8 a, 0, 0, 0, 0, 0⟩)
  | .warpctlKill c d a => some (eR 0x08C c ⟨s8 d, s8 a, 0, 0, 0, 0, 1⟩)
  | .unassignedOpcode w => some w
  | _ => none

/-- The 16-bit code of a dictionary reference (R184). -/
def encodeDict (k : BitVec 4) (i : BitVec 10) : Parcel := (3 : BitVec 2) ++ k ++ i

/-- The parcels of an instruction in address order (R4); empty for a happening, which has no encoding. -/
def encodeParcels (i : Instr) : List Parcel :=
  match i with
  | .dictionaryCode k n => [encodeDict k n]
  | i => match encode i with
    | some w => parcelsOfWord w
    | none => []

end Sys2Proof
end

