-- ==== Sys2Proof/Config.lean ====
section
/-! DEFINITION. What an implementation fixes, and the free values: results the spec leaves open (no body, so nothing in Lean can evaluate them), and the counts the spec states as rules. -/
namespace Sys2Proof.Config

/-- The approximate functions of R122. -/
inductive SpecialFn where
  | rcp | rsq | exp2 | log2 | sin | cos | tanh
  deriving DecidableEq, Repr

/-- R122: the value an approximate function returns where it is not an exact case, if it lies within the bound. It depends only on
the input. FREE VALUE, log 10. -/
opaque special : SpecialFn → Lane → Lane

/-- R126: the hash of a physical line address that chooses the home slice of a normal line. FREE VALUE, log 11. -/
opaque homeHash : Nat → Nat

/-- A fresh 64-bit value for the n-th point of a run that the spec leaves open. FREE VALUE, logs 6 and 12. -/
opaque freeValue : Nat → Word

/-- Ed448 under the device key: context bytes, then message (R398, R420, R424). FREE VALUE, log 13. -/
opaque ed448 : List Byte → List Byte → BitVec 912

/-- The device seed (R385). FREE VALUE, log 13. -/
opaque deviceSeed : BitVec 512

/-- The member secret that a domain's owner has for it, by the number that stands for the owner and the re-keys so far (R385, R386).
FREE VALUE, log 13. -/
opaque memberSecret : Nat → BitVec 256

/-- The bytes of a part of the signed configuration: 1 energy table, 2 partition configuration, 3 frame map, 4 ECAP values (R423).
FREE VALUE, log 13. -/
opaque layout : Nat → List Nat → List Byte

/-! Counts of the architecture (R2). -/

/-- R36: tenure limit in cycles. -/
def tenureLimit : Nat := 4096
/-- R38: tenure limit while the block is in rescue. -/
def rescueTenure : Nat := 256
/-- R38: age above which a warp puts its block into rescue. -/
def rescueAge : Nat := 65536
/-- R37: instructions of the LDRES window. -/
def ldresWindow : Nat := 16
/-- R50: counted instructions after which a path is switched. -/
def pathAgeing : Nat := 1024
/-- R89: cycles of a park before the watchdog. -/
def watchdog : Nat := 2 ^ 24
/-- R152: leave of a cluster, in grains. -/
def leaveBudget : Nat := 160
/-- R157: requests the lease queue holds. -/
def leaseQueueCap : Nat := 64
/-- R158, R162: wait after which a request is served first and may evict, in ns. -/
def leasePatience : Nat := 10000
/-- R163: the time within which an evicted engine stops, in ns. -/
def evictBound : Nat := 500
/-- R161: linger of a retained instance, in ns. -/
def retention : Nat := 50000
/-- R160: commands a lease queues at its engine. -/
def commandQueueCap : Nat := 16
/-- R65: physical registers of a core's pools. -/
def vectorPool : Nat := 8192
/-- R65: physical scalar registers of a core. -/
def scalarPool : Nat := 2048
/-- R328: reset value of TBUDGET.BUDGET. -/
def tbudget : Nat := 20000
/-- R74: largest value of a class counter. -/
def counterMax : Nat := 63
/-- R213: dispatch entries of a warp. -/
def dispatchCap : Nat := 4
/-- R215: pairs of a path's tag stack. -/
def tagCap : Nat := 7
/-- R49: entries of the path table. -/
def pathCap : Nat := 8
/-- R396: records of the journal ring. -/
def journalCap : Nat := 2 ^ 20
/-- R399: entries of the buffer that FIREWALL and NOTE records wait in. -/
def noteCap : Nat := 64

end Sys2Proof.Config
end

