-- ==== Sys2Proof/Machine/Alu.lean ====
section
/-! DEFINITION. Integer arithmetic of the scalar and the vector instructions (spec/09 R194 to R197, spec/10 R220 to R223): exact results, narrowed. -/
namespace Sys2Proof.Machine

/-- R194, R220: a predicate over two words. -/
def predHolds {n : Nat} (p : Pred) (a b : BitVec n) : Bool :=
  match p with
  | .eq => a == b | .ne => a != b
  | .lt => BitVec.slt a b | .le => BitVec.sle a b | .gt => BitVec.slt b a | .ge => BitVec.sle b a
  | .ltu => BitVec.ult a b | .leu => BitVec.ule a b | .gtu => BitVec.ult b a | .geu => BitVec.ule b a

/-- The high half of the exact product. -/
def mulHi (n : Nat) (u : Bool) (a b : BitVec n) : BitVec n :=
  if u then BitVec.ofNat n (a.toNat * b.toNat / 2 ^ n) else BitVec.ofInt n (a.toInt * b.toInt / 2 ^ n)

/-- R195: quotient truncated toward zero; by zero, all ones; of −2^63 by −1, −2^63. -/
def divS (u : Bool) (a b : BitVec 64) : BitVec 64 :=
  if b = 0 then BitVec.allOnes 64 else if u then a.udiv b else a.sdiv b
/-- R195: remainder with the sign of the dividend; by zero, the dividend. -/
def remS (u : Bool) (a b : BitVec 64) : BitVec 64 :=
  if b = 0 then a else if u then a.umod b else a.srem b

def minS {n : Nat} (a b : BitVec n) : BitVec n := if BitVec.slt b a then b else a
def maxS {n : Nat} (a b : BitVec n) : BitVec n := if BitVec.slt a b then b else a
def minU {n : Nat} (a b : BitVec n) : BitVec n := if BitVec.ult b a then b else a
def maxU {n : Nat} (a b : BitVec n) : BitVec n := if BitVec.ult a b then b else a

/-- Number of leading zero bits, n for zero. -/
def leadZeros {n : Nat} (a : BitVec n) : Nat := if a = 0 then n else n - 1 - a.toNat.log2
/-- Number of one bits. -/
def ones {n : Nat} (a : BitVec n) : Nat := ((List.range n).filter fun i => a.getLsbD i).length
/-- Index of the lowest set bit, 64 if none. -/
def lowest (a : Word) : Nat := ((List.range 64).find? fun i => a.getLsbD i).getD 64

/-- R196: extracts len bits from pos on; bits beyond 63 enter as zero; `s` extends the sign. -/
def bfx (a : Word) (pos len : Nat) (s : Bool) : Word :=
  let f := a.toNat / 2 ^ pos % 2 ^ len
  if s ∧ f.testBit (len - 1) then BitVec.ofInt 64 ((f : Int) - 2 ^ len) else BitVec.ofNat 64 f
/-- R196: inserts the low len bits of a at pos; bits beyond 63 are dropped. -/
def bfi (d a : Word) (pos len : Nat) : Word :=
  let m : Word := BitVec.ofNat 64 ((2 ^ len - 1) * 2 ^ pos)
  (d &&& ~~~m) ||| ((a <<< pos) &&& m)

/-- An immediate as the 64-bit value it stands for (R197). -/
def sx32 (i : BitVec 32) : Word := i.signExtend 64

/-- R220: signed saturation to 32 bits. -/
def satS (x : Int) : Lane := BitVec.ofInt 32 (max (-(2 ^ 31)) (min (2 ^ 31 - 1) x))
/-- R220: unsigned saturation to 32 bits. -/
def satU (x : Int) : Lane := BitVec.ofInt 32 (max 0 (min (2 ^ 32 - 1) x))

end Sys2Proof.Machine
end

