-- ==== Sys2Proof/Machine/Float.lean ====
section
/-! DEFINITION. Float formats, rounding and exact arithmetic (spec/05 R98 to R112, R120, R121): operands become exact dyadic values, results are rounded once. -/
namespace Sys2Proof.Machine

/-- A float format (R98): widths of exponent and fraction, bias, and whether it is e4m3 (R99). -/
structure Fmt where
  eb : Nat
  fb : Nat
  bias : Nat
  fp8 : Bool := false
  e4m3 : Bool := false
  deriving DecidableEq, Repr

def f32 : Fmt := ⟨8, 23, 127, false, false⟩
def f16 : Fmt := ⟨5, 10, 15, false, false⟩
def bf16 : Fmt := ⟨8, 7, 127, false, false⟩
def e5m2 : Fmt := ⟨5, 2, 15, true, false⟩
def e4m3 : Fmt := ⟨4, 3, 7, true, true⟩

/-- An operand: NaN with its fraction, infinity, or the exact value (−1)^s × m × 2^e. -/
inductive FV where
  | nan (s : Bool) (frac : Nat) (signalling : Bool)
  | inf (s : Bool)
  | fin (s : Bool) (m : Nat) (e : Int)
  deriving DecidableEq, Repr

/-- Rounding modes (R105). -/
inductive RM where
  | rn | rz | ru | rd
  deriving DecidableEq, Repr

/-- Flags (R107, R78): bit 0 inexact, 1 underflow, 2 overflow, 3 divide-by-zero, 4 invalid. -/
abbrev Flags := BitVec 5
def fxInexact : Flags := 1
def fxUnder : Flags := 2
def fxOver : Flags := 4
def fxDbz : Flags := 8
def fxInvalid : Flags := 16

/-- R98, R99: what an encoding stands for. -/
def Fmt.dec (f : Fmt) (n : Nat) : FV :=
  let s := n.testBit (f.eb + f.fb)
  let e := n / 2 ^ f.fb % 2 ^ f.eb
  let fr := n % 2 ^ f.fb
  if e = 0 then .fin s fr (1 - (f.bias : Int) - f.fb)
  else if e = 2 ^ f.eb - 1 ∧ (¬ f.e4m3 ∨ fr = 7) then
    (if f.e4m3 then .nan s fr false else if fr = 0 then .inf s else .nan s fr (!fr.testBit (f.fb - 1)))
  else .fin s (2 ^ f.fb + fr) ((e : Int) - f.bias - f.fb)

def Fmt.signed (f : Fmt) (s : Bool) (n : Nat) : Nat := (if s then 2 ^ (f.eb + f.fb) else 0) + n
def Fmt.zero (f : Fmt) (s : Bool) : Nat := f.signed s 0
def Fmt.infBits (f : Fmt) (s : Bool) : Nat := f.signed s ((2 ^ f.eb - 1) * 2 ^ f.fb)
/-- R98: the default NaN; e4m3's only NaN pattern. -/
def Fmt.dnan (f : Fmt) : Nat :=
  if f.e4m3 then 0x7F else (2 ^ f.eb - 1) * 2 ^ f.fb + 2 ^ (f.fb - 1)
/-- R98: the largest finite value. -/
def Fmt.maxBits (f : Fmt) (s : Bool) : Nat :=
  f.signed s (if f.e4m3 then 0x7E else (2 ^ f.eb - 1) * 2 ^ f.fb - 1)
/-- R108: a NaN with its sign and payload kept and its quiet bit set. -/
def Fmt.quiet (f : Fmt) (s : Bool) (frac : Nat) : Nat :=
  if f.e4m3 then f.signed s 0x7F else f.signed s ((2 ^ f.eb - 1) * 2 ^ f.fb + (frac ||| 2 ^ (f.fb - 1)))

/-- Whether a magnitude is rounded up, given what was cut off. -/
def roundsUp (r : RM) (s : Bool) (q rem half : Nat) : Bool :=
  match r with
  | .rn => decide (half < rem) || (rem == half && q % 2 == 1)
  | .rz => false
  | .ru => rem != 0 && !s
  | .rd => rem != 0 && s
/-- m × 2^e as an integer multiple of 2^q, rounded; and whether that is exact. -/
def roundAt (r : RM) (s : Bool) (m : Nat) (e q : Int) : Nat × Bool :=
  if q ≤ e then (m * 2 ^ (e - q).toNat, true)
  else
    let sh := (q - e).toNat
    let k := m / 2 ^ sh
    let rem := m % 2 ^ sh
    (if roundsUp r s k rem (2 ^ (sh - 1)) then k + 1 else k, rem == 0)

/-- R105, R107, R111: a non-zero exact value rounded once into a format, with its flags. FP8 saturates. -/
def Fmt.round (f : Fmt) (r : RM) (s : Bool) (m : Nat) (e : Int) : Nat × Flags :=
  if m = 0 then (f.zero s, 0)
  else
    let len : Int := (m.log2 : Int) + 1
    let p : Int := (f.fb : Int) + 1
    let emin : Int := 1 - (f.bias : Int)
    let q0 := e + len - p
    let qmin := emin - f.fb
    let q := max q0 qmin
    let (k, exact) := roundAt r s m e q
    let k0 := (roundAt r s m e q0).1
    -- tiny: the value rounded at unbounded exponent lies below 2^emin
    let tiny := decide (((k0.log2 : Int) + q0) < emin)
    let (k, q) := if k = 2 ^ (f.fb + 1) then (2 ^ f.fb, q + 1) else (k, q)
    if k < 2 ^ f.fb then
      (f.signed s k, (if exact then 0 else fxInexact) ||| (if tiny && !exact then fxUnder else 0))
    else
      let be := q + f.fb + f.bias
      let fr := k - 2 ^ f.fb
      let above := decide ((2 : Int) ^ f.eb - 1 < be) || (decide (be = (2 : Int) ^ f.eb - 1) && (!f.e4m3 || fr == 7))
      if above then
        let toInf := !f.fp8 && match r with
          | .rn => true | .rz => false | .ru => !s | .rd => s
        (if toInf then f.infBits s else f.maxBits s, fxOver ||| fxInexact)
      else
        (f.signed s (be.toNat * 2 ^ f.fb + fr), (if exact then 0 else fxInexact) ||| (if tiny && !exact then fxUnder else 0))

/-- R108: the first NaN among the operands, quieted; invalid if any of them is signalling. -/
def Fmt.propagate (f : Fmt) (l : List FV) : Option (Nat × Flags) :=
  let sig := l.any fun v => match v with
    | .nan _ _ g => g
    | _ => false
  (l.findSome? fun v => match v with
    | .nan s fr _ => some (f.quiet s fr)
    | _ => none).map fun n => (n, if sig then fxInvalid else 0)

def FV.isNan : FV → Bool
  | .nan _ _ _ => true
  | _ => false
def FV.isSNan : FV → Bool
  | .nan _ _ g => g
  | _ => false
def FV.neg : FV → FV
  | .nan s f g => .nan s f g
  | .inf s => .inf (!s)
  | .fin s m e => .fin (!s) m e
def FV.int (s : Bool) (m : Nat) : Int := if s then -(m : Int) else m

/-- Exact sum of two finite values, rounded once; R106 fixes the sign of a zero. -/
def Fmt.addFin (f : Fmt) (r : RM) (sa : Bool) (ma : Nat) (ea : Int) (sb : Bool) (mb : Nat) (eb : Int) : Nat × Flags :=
  if ma = 0 ∧ mb = 0 then (f.zero (if sa = sb then sa else r == .rd), 0)
  else if ma = 0 then f.round r sb mb eb
  else if mb = 0 then f.round r sa ma ea
  else
    let e := min ea eb
    let x := FV.int sa (ma * 2 ^ (ea - e).toNat) + FV.int sb (mb * 2 ^ (eb - e).toNat)
    if x = 0 then (f.zero (r == .rd), 0) else f.round r (decide (x < 0)) x.natAbs e

/-- Sum without a NaN operand. -/
def Fmt.addV (f : Fmt) (r : RM) (a b : FV) : Nat × Flags :=
  match a, b with
  | .inf s, .inf t => if s = t then (f.infBits s, 0) else (f.dnan, fxInvalid)
  | .inf s, _ => (f.infBits s, 0)
  | _, .inf t => (f.infBits t, 0)
  | .fin sa ma ea, .fin sb mb eb => f.addFin r sa ma ea sb mb eb
  | _, _ => (f.dnan, 0)

/-- R224: addition and subtraction. -/
def Fmt.add (f : Fmt) (r : RM) (a b : Nat) : Nat × Flags :=
  let x := f.dec a
  let y := f.dec b
  (f.propagate [x, y]).getD (f.addV r x y)
def Fmt.sub (f : Fmt) (r : RM) (a b : Nat) : Nat × Flags :=
  let x := f.dec a
  let y := f.dec b
  (f.propagate [x, y]).getD (f.addV r x y.neg)

/-- A product without NaN: exact value or infinity, none for 0 × ∞. -/
def mulV (a b : FV) : Option FV :=
  match a, b with
  | .inf s, .inf t => some (.inf (s != t))
  | .inf s, .fin t m _ => if m = 0 then none else some (.inf (s != t))
  | .fin t m _, .inf s => if m = 0 then none else some (.inf (s != t))
  | .fin s m e, .fin t n d => some (.fin (s != t) (m * n) (e + d))
  | _, _ => none

def Fmt.roundV (f : Fmt) (r : RM) : FV → Nat × Flags
  | .inf s => (f.infBits s, 0)
  | .fin s m e => f.round r s m e
  | .nan s fr _ => (f.quiet s fr, 0)

def Fmt.mul (f : Fmt) (r : RM) (a b : Nat) : Nat × Flags :=
  let x := f.dec a
  let y := f.dec b
  (f.propagate [x, y]).getD (match mulV x y with
    | some v => f.roundV r v
    | none => (f.dnan, fxInvalid))

/-- R109: one rounding; 0 × ∞ raises invalid, a NaN addend then passing through quieted. -/
def Fmt.fma (f : Fmt) (r : RM) (a b c : Nat) : Nat × Flags :=
  let x := f.dec a
  let y := f.dec b
  let z := f.dec c
  if x.isNan || y.isNan then (f.propagate [x, y, z]).getD (f.dnan, 0)
  else match mulV x y with
    | none => match f.propagate [z] with
      | some (n, _) => (n, fxInvalid)
      | none => (f.dnan, fxInvalid)
    | some v => (f.propagate [z]).getD (f.addV r v z)

/-- Integer square root, bit by bit. -/
def isqrtGo (n : Nat) : Nat → Nat → Nat
  | 0, r => r
  | i + 1, r => if (r + 2 ^ i) * (r + 2 ^ i) ≤ n then isqrtGo n i (r + 2 ^ i) else isqrtGo n i r

/-- R121: quotient, correctly rounded: enough bits and a sticky bit below them. -/
def Fmt.div (f : Fmt) (r : RM) (a b : Nat) : Nat × Flags :=
  let x := f.dec a
  let y := f.dec b
  (f.propagate [x, y]).getD (match x, y with
    | .inf _, .inf _ => (f.dnan, fxInvalid)
    | .inf s, .fin t _ _ => (f.infBits (s != t), 0)
    | .fin s _ _, .inf t => (f.zero (s != t), 0)
    | .fin s m e, .fin t n d =>
      if n = 0 then (if m = 0 then (f.dnan, fxInvalid) else (f.infBits (s != t), fxDbz))
      else if m = 0 then (f.zero (s != t), 0)
      else
        let k := f.fb + 4 + n.log2
        let q := m * 2 ^ k / n
        let st := if m * 2 ^ k % n = 0 then 0 else 1
        f.round r (s != t) (2 * q + st) (e - d - k - 1)
    | _, _ => (f.dnan, 0))

/-- R121: square root, correctly rounded; of −0, −0. -/
def Fmt.sqrt (f : Fmt) (r : RM) (a : Nat) : Nat × Flags :=
  let x := f.dec a
  (f.propagate [x]).getD (match x with
    | .inf s => if s then (f.dnan, fxInvalid) else (f.infBits s, 0)
    | .fin s m e =>
      if m = 0 then (f.zero s, 0)
      else if s then (f.dnan, fxInvalid)
      else
        let (m, e) := if e % 2 = 0 then (m, e) else (2 * m, e - 1)
        let k := f.fb + 3
        let n := m * 4 ^ k
        let q := isqrtGo n (f.fb + 3 + k) 0
        f.round r false (2 * q + (if q * q = n then 0 else 1)) (e / 2 - k - 1)
    | .nan _ _ _ => (f.dnan, 0))

/-- Order of two values without NaN; −0 below +0 when `z` is set (R110), equal to it otherwise (R108). -/
def FV.lt (z : Bool) (a b : FV) : Bool :=
  match a, b with
  | .inf s, .inf t => s && !t
  | .inf s, _ => s
  | _, .inf t => !t
  | .fin s m e, .fin t n d =>
    if m = 0 ∧ n = 0 then z && s && !t
    else
      let g := min e d
      decide (FV.int s (m * 2 ^ (e - g).toNat) < FV.int t (n * 2 ^ (d - g).toNat))
  | _, _ => false

/-- R110: minimumNumber (or maximumNumber): a NaN gives way to a number; of two NaNs, the first quieted. -/
def Fmt.minmax (f : Fmt) (mx : Bool) (a b : Nat) : Nat × Flags :=
  let x := f.dec a
  let y := f.dec b
  let fl := if x.isSNan || y.isSNan then fxInvalid else 0
  if x.isNan then
    (if y.isNan then (((f.propagate [x]).getD (f.dnan, 0)).1, fl) else (b, fl))
  else if y.isNan then (a, fl)
  else ((if mx then (if FV.lt true x y then b else a) else (if FV.lt true y x then b else a)), fl)

/-- R225: a comparison and its invalid flag. -/
def fcmp (p : FPred) (a b : Nat) : Bool × Flags :=
  let x := f32.dec a
  let y := f32.dec b
  let un := x.isNan || y.isNan
  let sn := if x.isSNan || y.isSNan then fxInvalid else 0
  let anyN := if un then fxInvalid else 0
  let lt := FV.lt false x y
  let gt := FV.lt false y x
  match p with
  | .eq => (!un && !lt && !gt, sn)
  | .ne => (un || lt || gt, sn)
  | .lt => (!un && lt, anyN)
  | .le => (!un && !gt, anyN)
  | .gt => (!un && gt, anyN)
  | .ge => (!un && !lt, anyN)
  | .un => (un, sn)
  | .ord => (!un, sn)

/-- R226. -/
def fclass (a : Nat) : Nat :=
  match f32.dec a with
  | .nan _ _ g => if g then 256 else 512
  | .inf s => if s then 1 else 128
  | .fin s m _ =>
    if m = 0 then (if s then 8 else 16)
    else if m < 2 ^ 23 then (if s then 4 else 32) else (if s then 2 else 64)

/-- R227: a × 2^b, rounded once; exponents beyond ±1000 change nothing further. -/
def fscale (r : RM) (a : Nat) (b : Int) : Nat × Flags :=
  match f32.dec a with
  | .nan s fr g => (f32.quiet s fr, if g then fxInvalid else 0)
  | .inf _ => (a, 0)
  | .fin s m e => f32.round r s m (e + max (-1000) (min 1000 b))

/-- R120, R229: D + float(A) × B × C, rounded once by RNE. A NaN of B or C propagates first; a zero times an infinity gives the
default NaN whatever D is. -/
def scaccV (a : Int) (b c d : Nat) : Nat × Flags :=
  let y := f32.dec b
  let z := f32.dec c
  let w := f32.dec d
  let x : FV := .fin (decide (a < 0)) a.natAbs 0
  if y.isNan || z.isNan then (f32.propagate [y, z, w]).getD (f32.dnan, 0)
  else match (mulV y z).bind fun v => mulV x v with
    | none => (f32.dnan, fxInvalid)
    | some v => (f32.propagate [w]).getD (f32.addV .rn v w)

/-! ## Conversions (R111, R112, R231 to R233) -/

/-- R111: a float value into a format. -/
def toFloat (src dst : Fmt) (r : RM) (v : FV) : Nat × Flags :=
  match v with
  | .nan s fr g =>
    let fl := if g then fxInvalid else 0
    if src = dst then (dst.quiet s fr, fl)
    else if src.fp8 || dst.fp8 then (dst.dnan, fl)
    else (dst.quiet s (if src.fb ≤ dst.fb then fr * 2 ^ (dst.fb - src.fb) else fr / 2 ^ (src.fb - dst.fb)), fl)
  | .inf s => if dst.e4m3 then (dst.signed s 0x7F, fxInvalid) else (dst.infBits s, 0)
  | .fin s m e => dst.round r s m e

/-- Saturation into an integer range. -/
def clampI (lo hi x : Int) : Int := max lo (min hi x)

/-- R112: a float value to an integer of a range. -/
def toInt (lo hi : Int) (r : RM) (v : FV) : Int × Flags :=
  match v with
  | .nan _ _ _ => (0, fxInvalid)
  | .inf s => (if s then lo else hi, fxInvalid)
  | .fin s m e =>
    let (k, exact) := roundAt r s m (min e 64) 0
    let x := FV.int s k
    if x < lo ∨ hi < x then (clampI lo hi x, fxInvalid) else (x, if exact then 0 else fxInexact)

/-- R112: an integer to a float. -/
def ofInt (dst : Fmt) (r : RM) (x : Int) : Nat × Flags :=
  if x = 0 then (0, 0) else dst.round r (decide (x < 0)) x.natAbs 0

/-- The float format of a type, if it is one. -/
def CvtTy_fmt : CvtTy → Option Fmt
  | .f32 => some f32 | .f16 => some f16 | .bf16 => some bf16 | .e4m3 => some e4m3 | .e5m2 => some e5m2
  | _ => none
/-- The range of an integer type (R101, R102). -/
def CvtTy_range : CvtTy → Int × Int
  | .i8 => (-128, 127) | .i16 => (-32768, 32767) | .i32 => (-(2 ^ 31), 2 ^ 31 - 1)
  | .n8 => (0, 255) | .n16 => (0, 65535) | .n32 => (0, 2 ^ 32 - 1)
  | .pi k => (-(2 ^ (k.toNat - 1)), 2 ^ (k.toNat - 1) - 1)
  | _ => (0, 0)
/-- An integer source lane (R231). -/
def CvtTy_int (t : CvtTy) (x : Lane) : Int :=
  match t with
  | .i8 => (x.extractLsb' 0 8).toInt
  | .i16 => (x.extractLsb' 0 16).toInt
  | .i32 => x.toInt
  | .n8 => (x.toNat % 256 : Nat)
  | .n16 => (x.toNat % 65536 : Nat)
  | .n32 => x.toNat
  | .pi k => (BitVec.ofNat k.toNat x.toNat).toInt
  | _ => 0

/-- R231: one lane of CVT. -/
def cvtLane (dst src : CvtTy) (r : RM) (x : Lane) : Lane × Flags :=
  match CvtTy_fmt src, CvtTy_fmt dst with
  | some f, some g => let y := toFloat f g r (f.dec (x.toNat % 2 ^ (1 + f.eb + f.fb))); (BitVec.ofNat 32 y.1, y.2)
  | some f, none =>
    let y := toInt (CvtTy_range dst).1 (CvtTy_range dst).2 r (f.dec (x.toNat % 2 ^ (1 + f.eb + f.fb)))
    (BitVec.ofInt 32 y.1, y.2)
  | none, some g => let y := ofInt g r (CvtTy_int src x); (BitVec.ofNat 32 y.1, y.2)
  | none, none => (BitVec.ofInt 32 (clampI (CvtTy_range dst).1 (CvtTy_range dst).2 (CvtTy_int src x)), 0)

def PackTy_cvt : PackTy → CvtTy
  | .f16 => .f16 | .bf16 => .bf16 | .e4m3 => .e4m3 | .e5m2 => .e5m2
  | .i8 => .i8 | .i16 => .i16 | .n8 => .n8 | .n16 => .n16
def PackTy_float : PackTy → Bool
  | .f16 | .bf16 | .e4m3 | .e5m2 => true
  | _ => false
def PackTy_byte : PackTy → Bool
  | .e4m3 | .e5m2 | .i8 | .n8 => true
  | _ => false
/-- R232: one source narrowed: f32 for a float type, i32 for an integer type. -/
def packElem (t : PackTy) (r : RM) (x : Lane) : Nat × Flags :=
  let y := cvtLane (PackTy_cvt t) (if PackTy_float t then .f32 else .i32) r x
  (y.1.toNat % (if PackTy_byte t then 256 else 65536), y.2)
/-- R232: one lane of PACK. -/
def packLane (t : PackTy) (hi : Bool) (r : RM) (d a b : Lane) : Lane × Flags :=
  let x := packElem t r a
  let y := packElem t r b
  let fl := x.2 ||| y.2
  if PackTy_byte t then
    let v := x.1 + 256 * y.1
    (if hi then BitVec.ofNat 32 (d.toNat % 65536 + 65536 * v) else BitVec.ofNat 32 (d.toNat / 65536 * 65536 + v), fl)
  else (BitVec.ofNat 32 (x.1 + 65536 * y.1), fl)
/-- R233: one element widened. -/
def unpackLane (t : PackTy) (n : Nat) (a : Lane) : Lane × Flags :=
  let w := if PackTy_byte t then 8 else 16
  let e : Lane := BitVec.ofNat 32 (a.toNat / 2 ^ (w * n) % 2 ^ w)
  cvtLane (if PackTy_float t then .f32 else .i32) (PackTy_cvt t) .rn e

/-- R228: both elements of a packed lane. -/
def halves (op : Nat → Nat → Nat → Nat × Flags) (a b c : Lane) : Lane × Flags :=
  let lo := op (a.toNat % 65536) (b.toNat % 65536) (c.toNat % 65536)
  let hi := op (a.toNat / 65536) (b.toNat / 65536) (c.toNat / 65536)
  (BitVec.ofNat 32 (lo.1 + 65536 * hi.1), lo.2 ||| hi.2)

end Sys2Proof.Machine
end

