-- ==== Sys2Proof/Machine/Store.lean ====
section
/-! DEFINITION. Sparse stores as plain data in one canonical form: byte maps (memory, scratchpads, tile values) and maps from numbers to records. -/
namespace Sys2Proof.Machine

/-- A byte store: addresses strictly rising, no entry equal to zero, which is what an unlisted address reads as (log 8). -/
abbrev Memory := List Host.Cell

/-- The byte at an address. -/
def Memory.get : Memory → Nat → Byte
  | [], _ => 0
  | (x, b) :: m, a => if x = a then b else Memory.get m a

/-- Writes one byte; a zero removes the entry, so that equal stores are equal data. -/
def Memory.set : Memory → Nat → Byte → Memory
  | [], a, b => if b = 0 then [] else [(a, b)]
  | (x, y) :: m, a, b =>
    if x < a then (x, y) :: Memory.set m a b
    else if x = a then (if b = 0 then m else (a, b) :: m)
    else if b = 0 then (x, y) :: m else (a, b) :: (x, y) :: m

/-- The canonical form. -/
abbrev Memory.wf (m : Memory) : Prop := m.Pairwise (fun p q => p.1 < q.1) ∧ ∀ p ∈ m, p.2 ≠ 0

/-- R4: n bytes, the lowest address holding the lowest bits. -/
def Memory.readN (m : Memory) (a : Nat) : Nat → Nat
  | 0 => 0
  | n + 1 => (m.get a).toNat + 256 * Memory.readN m (a + 1) n

/-- Writes the low n bytes of v, little-endian (R4). -/
def Memory.writeN (m : Memory) (a : Nat) : Nat → Nat → Memory
  | 0, _ => m
  | n + 1, v => Memory.writeN (m.set a (BitVec.ofNat 8 v)) (a + 1) n (v / 256)

/-- The n bytes from an address on. -/
def Memory.bytes (m : Memory) (a : Nat) : Nat → List Byte
  | 0 => []
  | n + 1 => m.get a :: Memory.bytes m (a + 1) n

/-- Writes a list of bytes from an address on. -/
def Memory.put (m : Memory) (a : Nat) : List Byte → Memory
  | [] => m
  | b :: bs => Memory.put (m.set a b) (a + 1) bs

/-- The value of a list of bytes, the first lowest (R4). -/
def leVal : List Byte → Nat
  | [] => 0
  | b :: bs => b.toNat + 256 * leVal bs

/-- n bytes of a value, the lowest first (R4). -/
def leBytes : Nat → Nat → List Byte
  | 0, _ => []
  | n + 1, v => BitVec.ofNat 8 v :: leBytes n (v / 256)

/-- A map from numbers, keys strictly rising. -/
abbrev SMap (α : Type) := List (Nat × α)

def SMap.get? {α : Type} : SMap α → Nat → Option α
  | [], _ => none
  | (x, v) :: m, k => if x = k then some v else SMap.get? m k

def SMap.put {α : Type} : SMap α → Nat → α → SMap α
  | [], k, v => [(k, v)]
  | (x, y) :: m, k, v =>
    if x < k then (x, y) :: SMap.put m k v
    else if x = k then (k, v) :: m
    else (k, v) :: (x, y) :: m

def SMap.del {α : Type} (m : SMap α) (k : Nat) : SMap α := m.filter fun p => p.1 != k

def SMap.getD {α : Type} (m : SMap α) (k : Nat) (d : α) : α := (m.get? k).getD d
def SMap.has {α : Type} (m : SMap α) (k : Nat) : Bool := (m.get? k).isSome
/-- Changes the record at a key that is present. -/
def SMap.modify {α : Type} (m : SMap α) (k : Nat) (f : α → α) : SMap α :=
  match m.get? k with
  | some v => m.put k (f v)
  | none => m
def SMap.mapVals {α β : Type} (m : SMap α) (f : Nat → α → β) : SMap β := m.map fun p => (p.1, f p.1 p.2)
def SMap.keys {α : Type} (m : SMap α) : List Nat := m.map Prod.fst
def SMap.vals {α : Type} (m : SMap α) : List α := m.map Prod.snd
abbrev SMap.wf {α : Type} (m : SMap α) : Prop := m.Pairwise (fun p q => p.1 < q.1)

/-- Insertion into a list in order: after the elements that may stand before it. -/
def insertBy {α : Type} (le : α → α → Bool) (a : α) : List α → List α
  | [] => [a]
  | b :: l => if le a b then a :: b :: l else b :: insertBy le a l
/-- A list in order; equals stay as they were. -/
def sortBy {α : Type} (le : α → α → Bool) : List α → List α
  | [] => []
  | a :: l => insertBy le a (sortBy le l)

/-- Replaces the element at a position, if there is one. -/
def setAt {α : Type} : List α → Nat → α → List α
  | [], _, _ => []
  | _ :: l, 0, v => v :: l
  | x :: l, n + 1, v => x :: setAt l n v

/-- Replaces the element at a position of a list that reads as d beyond its end. -/
def putAt {α : Type} (d : α) : List α → Nat → α → List α
  | [], 0, v => [v]
  | [], n + 1, v => d :: putAt d [] n v
  | _ :: l, 0, v => v :: l
  | x :: l, n + 1, v => x :: putAt d l n v

/-- One value for each lane below W. -/
def lanes {α : Type} (W : Nat) (f : Nat → α) : List α := (List.range W).map f

/-- The bits below W that satisfy a test, as a mask. -/
def maskOf (W : Nat) (f : Nat → Bool) : Word :=
  (List.range W).foldl (fun m L => if f L then m ||| (1#64 <<< L) else m) 0#64

/-- Bits W−1:0 all set (R5). -/
def allLanes (W : Nat) : Word := BitVec.ofNat 64 (2 ^ W - 1)

end Sys2Proof.Machine
end

