-- ==== Sys2Proof/Machine/State.lean ====
section
/-! DEFINITION. The state of the A960: every register, table, queue and memory the spec names, as plain data, and the machine right after power-on. -/
namespace Sys2Proof.Machine

/-! ## Warp state (spec/02, spec/03) -/

/-- The six classes of outstanding operations (R74). -/
inductive Cls where
  | ld | st | tl | dm | mx | cl
  deriving DecidableEq, Repr

/-- A vector register's entry in the mapping table (R56): mapped or spilled; a register without an entry is unmapped. -/
structure VReg where
  lanes : List Lane
  spilled : Bool := false
  /-- mapped when the current header was entered (R60, R61). -/
  entry : Bool := false
  /-- poisoned lanes with the address their data came from (R345). -/
  poison : List (Nat × Nat) := []
  /-- producer of the outstanding operation that will write it (R242, R405). -/
  pend : Option Nat := none
  deriving DecidableEq, Repr

/-- A scalar register's entry (R56). -/
structure SReg where
  val : Word
  spilled : Bool := false
  entry : Bool := false
  poison : Option Nat := none
  pend : Option Nat := none
  deriving DecidableEq, Repr

/-- A stream descriptor (R67). PORT equals the index while bound. -/
structure SDesc where
  base : Word := 0
  stride : BitVec 32 := 0
  count : BitVec 32 := 0
  pos : BitVec 32 := 0
  esize : BitVec 3 := 0
  dir : Bool := false
  bound : Bool := false
  deriving DecidableEq, Repr

/-- A block header in force: its address and its word (R176). -/
structure Hdr where
  addr : Nat
  word : Word
  deriving DecidableEq, Repr

/-- The element reads an instruction has started (R70). -/
structure Stage where
  pc : Nat
  op : Nat
  arrived : Bool
  /-- per port read: its number, one value a lane, and poisoned lanes with their addresses. -/
  ports : List (Nat × List Lane × List (Nat × Nat))
  /-- positions and exhausted bits to put back if the instruction traps (R9). -/
  pos0 : List (Nat × BitVec 32)
  exh0 : BitVec 8
  deriving DecidableEq, Repr

/-- An entry of the path table (R49, R215). -/
structure Path where
  pc : Nat := 0
  /-- the parcel at pc is a header position (R173). -/
  atHdr : Bool := true
  hdr : Hdr := ⟨0, 0⟩
  lanes : Word := 0
  exec : Word := 0
  age : Nat := 0
  /-- instructions issued since current, while a sibling could issue (R50). -/
  issued : Nat := 0
  tags : List (Nat × Nat) := []
  /-- arrived at a JOIN in the block with this header (R217). -/
  arrived : Option Nat := none
  /-- Perch hold (R408). -/
  hold : Bool := false
  /-- set by a TRET: at the next fetch the PC must be the start of an instruction of its body (R331). -/
  chk : Bool := false
  /-- the request of the header it stands at was settled when the handler was entered (R321, R341). -/
  settled : Bool := false
  stage : Option Stage := none
  /-- it runs the user handler (R321). -/
  inH : Bool := false
  /-- the breakpoint at this address has been taken and released (R408). -/
  past : Option Nat := none
  deriving DecidableEq, Repr

/-- A load reservation (R138, R251), with the LDRES that sets it. -/
structure LdRes where
  op : Nat
  addr : Nat
  va : Nat
  sp : Bool
  w64 : Bool
  deriving DecidableEq, Repr

/-- A pending dispatch entry (R212, R213). -/
structure Disp where
  site : Nat
  /-- header of the block that holds the CALLI. -/
  hdr : Hdr
  ret : Nat
  exec0 : Word
  rem : Word
  grp : Word
  cls : BitVec 8
  va : List Lane
  deriving DecidableEq, Repr

/-- The CALLI that entered the current routine, with what TRAP #LAZY records (R214). -/
structure LastSite where
  site : Nat
  hdr : Hdr
  index : Nat
  cls : BitVec 8
  deriving DecidableEq, Repr

/-- Why the warp's next instruction cannot issue (R34, R43, R52). -/
inductive Wait where
  | none | reg | header | counter | full | fence | barrier | sync | queue | engine | stream | name (n : Nat)
  deriving DecidableEq, Repr

inductive Life where
  | live | faulted | exited
  deriving DecidableEq, Repr

/-- A forced transfer that falls due in this cycle (R28). -/
inductive Forced where
  | slip | tenure | fault
  deriving DecidableEq, Repr

/-- What a warp's slot does in a cycle, as a stall sample shows it (R404): it issued, or the baton moved and it is in transfer (R27). -/
inductive SlotUse where
  | none | issued | moved
  deriving DecidableEq, Repr

/-- An arrival at BSYNC, GSYNC or LSYNC with the generation it was made in (R257). -/
structure Arrive where
  scope : Scope
  gen : Nat
  /-- the barrier has opened and the core has resumed the warp (R367). -/
  go : Bool := false
  deriving DecidableEq, Repr

/-- A trap on its way to a handler: the fields of R321 and R342. -/
structure TrapInfo where
  code : Nat
  sub : Nat := 0
  taddr : Nat := 0
  tmask : Word := 0
  arg : Nat := 0
  index : Nat := 0
  cls : Nat := 0
  site : Nat := 0
  remain : Word := 0
  shdr : Nat := 0
  /-- TPC and EXEC where they are not the current ones (R213, R321). -/
  tpc : Option Nat := none
  rhdr : Nat := 0
  /-- INNERPC where it is not the one of the present instruction (R281). -/
  inner : Option Nat := none
  /-- of 0x22: an instruction consumed poisoned data; otherwise a fetch or a page walk read it (R345). -/
  used : Bool := false
  exec : Option Word := none
  /-- RESUME is the next instruction (R342). -/
  next : Bool := false
  deriving DecidableEq, Repr

/-- A handler entry that waits for its reservation (R321, R341). -/
structure HEntry where
  frame : Nat
  target : Nat
  reqV : Nat
  reqS : Nat
  deriving DecidableEq, Repr

/-- Read-modify-write operations of R248 and R250. -/
inductive Rmw where
  | add | sub | and | or | xor | min | max | minn | maxn | xchg | cas | fadd | fmin | fmax
  deriving DecidableEq, Repr

/-- An update of a barrier object (R254). -/
inductive BarUpd where
  | init (arr exp : Nat) | arrive | expect (n : Nat)
  deriving DecidableEq, Repr

/-- One access of an outstanding operation: a lane, an element or the one access of a scalar instruction. -/
structure Acc where
  lane : Nat
  va : Nat
  addr : Nat
  n : Nat
  /-- key domain of the page, its lease in ns, its home unit (R126). -/
  dom : Nat := 0
  lease : Nat := 0
  home : Nat := 0
  uncached : Bool := false
  /-- store data or operand, and CAS's new value. -/
  data : Nat := 0
  data2 : Nat := 0
  /-- what a load or an atomic received. -/
  val : Option Nat := none
  bad : Bool := false
  /-- arrival number at the home (R130), and whether the write has been applied. -/
  arr : Option Nat := none
  applied : Bool := false
  /-- chain time at which it was applied. -/
  at' : Nat := 0
  deriving DecidableEq, Repr

/-- Where an operation's result goes. -/
inductive Dst where
  | none
  | vec (d : VIdx) (pair : Bool)
  | sca (d : SIdx)
  | stage
  deriving DecidableEq, Repr

/-- Engine commands with their operands as taken at issue (R268 to R275). -/
inductive Cmd where
  | loadb (name kb nb : Nat) (f : BFmt)
  | run (name cnt row : Nat) (f : AFmt)
  | drain (name row nb : Nat) (z bar : Bool)
  | zero (row : Nat)
  | conv (row : Nat) (f : AFmt) (sp : Bool)
  | shape
  | copy (k : DmCtl)
  | gather (idx : List Lane) (n : Nat) (k : DmCtl)
  | scatter (idx : List Lane) (n : Nat) (k : DmCtl)
  | fill (spd bar : Bool)
  | reduce (tag : Nat) (o : ClOp) (t : ClTy) (bar : Bool)
  | gatherC (tag : Nat) (bar : Bool)
  | bcast (tag : Nat) (bar : Bool)
  deriving DecidableEq, Repr

/-- A queued command: its issuer, its operation there, the operand scalars, and the memory it reads and writes as
translated at issue, in pieces that each lie in one page (R268, R379). -/
structure QCmd where
  warp : Nat
  op : Nat
  c : Cmd
  regs : List Word
  src : List Acc := []
  dst : List Acc := []
  /-- which collective of its tag and rank it belongs to (R275). -/
  num : Nat := 0
  /-- its place in the order of arrival at the engines (R154), and when it issued: the order of the commands that read or write the same
  accumulator rows (R117). -/
  seq : Nat := 0
  iss : Nat := 0
  /-- definition number of the tile name it writes. -/
  tag : Nat := 0
  /-- it has ended at its engine, which has released its memory writes (R163): its operation is a `land` until they are visible. -/
  worked : Bool := false
  /-- bytes of its sends that have gone over Furlong (R392). -/
  sent : Nat := 0
  /-- barrier object to credit: scratchpad offset and byte count (R143, R268). -/
  bar : Option (Nat × Nat) := none
  aborted : Bool := false
  deriving DecidableEq, Repr

/-- A fill in flight (R136): its line, its place in the order in which the warp's open fills were read, and its bytes without those that
R133 forbids. -/
structure Fill where
  line : Nat
  no : Nat
  bytes : List (Option Byte)
  deriving DecidableEq, Repr

/-- What an outstanding operation does. -/
inductive OpK where
  | load (w : Wid) (scalar : Bool)
  | ldres
  | stream (esize : BitVec 3)
  | store
  /-- whether it still succeeds, and the LDRES its reservation came from. -/
  | stcon (ok : Bool) (rd : Nat)
  | rmw (o : Rmw) (ret : Bool)
  | bar (u : BarUpd)
  | publish (win : Nat) (time : Nat)
  | aszrec (a b : Word)
  | tread (row : Nat)
  | twrite (row : Nat) (data : List Byte)
  /-- the operands of a SCACC.T with what its destination held, the header of its block, and whether a routine of an INV issued it
  (R230, R281). -/
  | scacc (row : Nat) (b c d : List Lane) (ms : Word) (hdr : Nat) (inner : Bool)
  | tload (planes : Nat)
  | tstore (base pitch : Nat) (plane : Bool)
  | cmd
  /-- a command that has ended at its engine and whose memory writes are on their way home (R140): its cluster. -/
  | land (cluster : Nat) (q : QCmd)
  /-- a TSTORE whose tile has been read and whose writes are on their way (R265). -/
  | put
  /-- writes of the host, of the Perch window and of a launch's signal, with the launch. -/
  | host (lid : Option Word)
  deriving DecidableEq, Repr

/-- An outstanding operation (R74). -/
structure Op where
  id : Nat
  cls : Cls
  k : OpK
  sp : Bool := false
  accs : List Acc := []
  dst : Dst := .none
  /-- scopes of visibility already returned (R131). -/
  done : Bool := false
  pc : Nat := 0
  /-- name of the tile table for a tile operation, lease key for a command. -/
  name : Nat := 0
  /-- fills that later loads of the warp may merge into (R136). -/
  fills : List Fill := []
  /-- elements a load appends to write ports when it completes (R245): the load's id. Until then data2 of an element is 1 where it
  takes the high half of a pair. -/
  link : Option Nat := none
  /-- definition number of the tile name it writes. -/
  tag : Nat := 0
  /-- of a scalar instruction: charged at width code 0 (R368). -/
  scalar : Bool := false
  /-- whether its destination, and the second of a pair, was a bound write port when it issued (R71). -/
  port : Bool × Bool := (false, false)
  /-- lanes of its destination, and of the second of a pair, that no younger write has taken: now, and at an INV's last boundary. Of a
  scalar destination bit 0 stands for the register (log 7). -/
  left : Word × Word := (BitVec.allOnes 64, BitVec.allOnes 64)
  left0 : Word × Word := (BitVec.allOnes 64, BitVec.allOnes 64)
  deriving DecidableEq, Repr

/-- What a parked instruction waits to do (R84, R88, R91). -/
inductive ParkK where
  | read
  | cmd (lease : Nat) (c : QCmd)
  | define (k : TKind)
  | new (k : TKind) (h : SIdx)
  deriving DecidableEq, Repr

/-- A parked instruction: its name, what it does when served, the counted operation, its length and the scalars it frees. -/
structure Park where
  name : Nat
  k : ParkK
  /-- a command's further sources: names still awaited, and names whose read has been taken (R268). -/
  need : List Nat := []
  got : List Nat := []
  op : Nat := 0
  ilen : Nat := 8
  frees : List SIdx := []
  vfrees : List VIdx := []
  /-- port positions and exhausted bits to put back if the record is withdrawn. -/
  port0 : List (Nat × BitVec 32) := []
  exh0 : BitVec 8 := 0
  deriving DecidableEq, Repr

/-- Phases of an INV run (R278). -/
inductive InvPhase where
  | lo | hi | mid | fin
  deriving DecidableEq, Repr

/-- What an INV puts back at a trap or a stop inside a run: the state of its last boundary (R281), and the number of the next
operation there. -/
structure InvSnap where
  vregs : SMap VReg := []
  sregs : SMap SReg := []
  masks : List Word := []
  brk : List (List Lane) := []
  sds : List SDesc := []
  exh : BitVec 8 := 0
  fpstat : BitVec 5 := 0
  opNext : Nat := 0
  deriving DecidableEq, Repr

/-- An INV in progress (R276 to R281): its operands and block, the routine, the lanes E, and where the narrowing stands. -/
structure InvRun where
  o : InvOps
  pc : Nat
  hdr : Hdr
  target : Nat
  ret : Nat
  exec0 : Word
  active : Word
  ph : InvPhase
  dec : Bool
  /-- TGT is freed at completion. -/
  lu : Bool
  y : List Lane
  m : List Lane
  flo : List Lane
  fhi : List Lane
  live : Word
  run : Word
  /-- instructions of the present run that have issued. -/
  n : Nat
  snap : InvSnap := {}
  deriving DecidableEq, Repr

/-- What the launch and the placement fix for a warp (R78, R311). -/
structure Ident where
  lid : Word := 0
  part : Nat := 0
  vdev : Nat := 0
  gang : Nat := 0
  block : Nat := 0
  nwarps : Nat := 1
  W : Nat := 16
  nblocks : Nat := 1
  ngangs : Nat := 1
  rank : Nat := 0
  tnbase : Nat := 0
  tncount : Nat := 0
  entry : Nat := 0
  argbase : Nat := 0
  dictbase : Nat := 0
  dictcount : Nat := 0
  classdir : Nat := 0
  classn : Nat := 0
  handler : Nat := 0
  spillbase : Nat := 0
  abort : Bool := false
  floorV : Nat := 0
  floorS : Nat := 0
  /-- whether every die of the launch lies in this package (R131). -/
  onePkg : Bool := true
  deriving DecidableEq, Repr

/-- A warp: everything R54, R78 and R328 give it. -/
structure Warp where
  real : Bool := false
  core : Nat := 0
  idx : Nat := 0
  life : Life := .live
  id : Ident := {}
  vregs : SMap VReg := []
  sregs : SMap SReg := []
  /-- m1 to m15; m0 is the current path's exec. -/
  masks : List Word := List.replicate 15 0
  brk : List (List Lane) := List.replicate 4 []
  sds : List SDesc := List.replicate 8 {}
  resV : Nat := 0
  resS : Nat := 0
  /-- the reservation a victim of R62 needs back (R63), or a TRET's (R331). -/
  owed : Option (Nat × Nat) := none
  ops : List Op := []
  opNext : Nat := 0
  lctb : Nat := 0
  lctg : Nat := 0
  lctd : Nat := 0
  fsucc : Nat := 0
  /-- FSUCC at the start of the cycle in which it was written: walks and passes of that cycle use it (R199). -/
  fsuccOld : Option Nat := none
  slipw : Nat := 32
  tenure : Nat := 0
  inboxFull : Bool := false
  inboxFrom : Nat := 0
  baton : Option Nat := none
  rmode : BitVec 2 := 0
  trapen : BitVec 5 := 0
  fpstat : BitVec 5 := 0
  exh : BitVec 8 := 0
  voidrd : Bool := false
  invValid : Bool := false
  invIter : BitVec 7 := 0
  pid : Nat := 0
  p : Path := {}
  paths : SMap Path := []
  ldr : Option LdRes := none
  /-- the reservation has been lost to another agent's write (R138). -/
  ldrLost : Bool := false
  win : Nat := 0
  disp : List Disp := []
  lastSite : Option LastSite := none
  /-- LastSite when the handler of a pre-emption was entered: kept for the resume (R213). -/
  keptSite : Option LastSite := none
  /-- the handler entry it waited for when a supervisor trap came: it waits for it again after the TRET (R43, R348). -/
  keptEntry : Option HEntry := none
  inv : Option InvRun := none
  idle : Nat := 0
  slips : Nat := 0
  age : Nat := 0
  wait : Wait := .none
  park : Option Park := none
  parkT : Nat := 0
  /-- it was stopped while parked, and has not tried to issue since (R332, R339). -/
  wasParked : Bool := false
  /-- the parked operations of its other paths, with their cycles, by path (R50, R88). -/
  parks : SMap (Park × Nat) := []
  arrive : Option Arrive := none
  /-- a sync that has issued and waits for its implied fence before it arrives (R256). -/
  pendSync : Option Scope := none
  halted : Bool := false
  /-- halts at its TRET: HALTG came while it was in S mode, or it was halted when it entered the handler (R343, R353). -/
  haltReq : Bool := false
  perched : Bool := false
  /-- a Perch stop that waits for the TRET (R402), and ARG of the BRK that stopped the warp (R408). -/
  perchReq : Bool := false
  brkArg : Nat := 0
  /-- stopped because every live path is held (R408). -/
  heldAll : Bool := false
  /-- the address of the instruction issued last (R404). -/
  lastPc : Nat := 0
  stopReq : Bool := false
  stopped : Bool := false
  entry : Option HEntry := none
  smode : Bool := false
  active : Bool := false
  ppm : Bool := false
  tcode : Nat := 0
  tsub : Nat := 0
  taddr : Nat := 0
  tmask : Word := 0
  tpc : Nat := 0
  /-- saved to its shadow slot by SHSAVE: it holds no physical register (R333). -/
  shadow : Bool := false
  trapV : Nat := 0
  trapS : Nat := 0
  /-- cycles in which the warp's slot issues nothing (R20, R27). -/
  busy : Nat := 0
  /-- a PASS status not yet readable: register and cycles left (R30), and the PASS's address (R405). -/
  passHold : Option (SIdx × Nat) := none
  passPc : Nat := 0
  /-- what the warp's slot does in the present cycle (R404). -/
  slotUse : SlotUse := .none
  forced : Option Forced := none
  /-- a slip fell due inside an iteration of an INV and waits for its boundary (R37). -/
  slipDue : Bool := false
  /-- the last attempt to issue did not issue. -/
  stalled : Bool := false
  deriving DecidableEq, Repr

/-! ## Cores and clusters -/

/-- A block on a core (R22). -/
structure Block where
  lid : Word := 0
  gang : Nat := 0
  block : Nat := 0
  nwarps : Nat := 0
  batons : Nat := 0
  spadpg : Nat := 0
  /-- BSYNC's generation; warps that have arrived are found by their arrival marks. -/
  gen : Nat := 0
  deriving DecidableEq, Repr

/-- A pre-emption of a core (R347 to R352). -/
structure Preempt where
  entered : Bool := false
  deriving DecidableEq, Repr

/-- The context of a virtual device's block in shadow storage (R349, R352): warps by index, scratchpad and core registers. -/
structure Saved where
  block : Option Block := none
  warps : SMap Warp := []
  sp : Memory := []
  spPoison : List Nat := []
  dict : List Word := []
  dictFor : Option (Word × Nat) := none
  unheld : SMap Nat := []
  tframe : Nat := 0
  budget : Nat := 0
  /-- cycles the pre-emption had left when it ended (R349). -/
  left : Nat := 0
  slope : Nat := 0
  ctrPage : Nat := 0
  notice : Bool := false
  deriving DecidableEq, Repr

structure Core where
  block : Option Block := none
  sp : Memory := []
  spPoison : List Nat := []
  /-- physical pages that scratchpad-pinned pages occupy here (R376). -/
  pinned : List Nat := []
  dict : List Word := []
  dictFor : Option (Word × Nat) := none
  /-- batons that belong to no warp, with the warp that gave them up (R41). -/
  unheld : SMap Nat := []
  copies : SMap Nat := []
  tframe : Nat := 0
  budget : Nat := Config.tbudget
  left : Nat := 0
  slope : Nat := 0
  ctrPage : Nat := 0
  pre : Option Preempt := none
  /-- a notice 0x21 whose entry waits for its reservation: the other warps stand still (R352). -/
  notice : Bool := false
  /-- released at the end of a slice: nothing runs until the next begins (R349, R352). -/
  away : Bool := false
  /-- by virtual device. -/
  saved : SMap Saved := []
  waveT : Nat := 0
  sample : Nat := 0
  /-- the core pauses in the present cycle (R407). -/
  paused : Bool := false
  /-- local time inside the tick, in 1/84 ns, and the slot to serve next (log 5). -/
  phase : Nat := 0
  slot : Nat := 0
  deriving DecidableEq, Repr

/-- Tile states (R84). -/
inductive TState where
  | free | filling | ready | draining
  deriving DecidableEq, Repr

structure Tile where
  st : TState := .free
  void : Bool := false
  sealP : Bool := false
  kind : TKind := .w32
  /-- how often the name has been taken. -/
  defc : Nat := 0
  defw : Nat := 0
  defb : Nat := 0
  data : Memory := []
  poison : List Nat := []
  writes : Nat := 0
  reads : Nat := 0
  /-- the parked operations recorded here, in order, each by the path that parked: 8 times its warp's key plus its index (R88). -/
  parked : List Nat := []
  /-- the definer has ended (R90). -/
  orphan : Bool := false
  used : Bool := false
  deriving DecidableEq, Repr

/-- States of a lease (R155); an INVALID lease is none at all. -/
inductive LState where
  | waking | live | vacating | evicted
  deriving DecidableEq, Repr

/-- State an engine keeps for a lease (R115 to R119, R166, R170). -/
structure EngState where
  /-- the B format recorded by commands issued, and that of the B held (R269). -/
  bfmt : Option BFmt := none
  loaded : Option BFmt := none
  /-- B elements, two bytes each, at 2 × (128 × K row + column). -/
  bplanes : Memory := []
  /-- accumulator elements, at 128 × row + column. -/
  acc : SMap Lane := []
  shape : Option (Word × Word) := none
  pos : Nat := 0
  deriving DecidableEq, Repr

/-- A lease (R153 to R155), kept under its handle word. -/
structure Lease where
  cls : EngClass := .mx
  inst : Nat := 0
  sh : Bool := false
  /-- launch and gang that hold it. -/
  lid : Word := 0
  gang : Nat := 0
  part : Nat := 0
  vdev : Nat := 0
  prio : Nat := 3
  st : LState := .waking
  /-- woken with state kept (RETAINED in LSTAT). -/
  kept : Bool := false
  grant : Nat := 0
  wakeAt : Nat := 0
  queue : List QCmd := []
  aborted : Bool := false
  poison : Bool := false
  /-- evicted, and the engine has not stopped yet (R163). -/
  stopping : Bool := false
  evictAt : Nat := 0
  /-- its handle has become INVALID although its commands have not all ended. -/
  gone : Bool := false
  /-- it was vacated in the cluster's present cycle: this cycle's evictions leave it (R165). -/
  vacNow : Bool := false
  eng : EngState := {}
  /-- the MX handle a CV lease drives (R170). -/
  binding : Option Nat := none
  deriving DecidableEq, Repr

/-- A lease request in the queue (R157). -/
structure LReq where
  warp : Nat
  dst : SIdx
  cls : EngClass
  sh : Bool
  prio : Nat
  since : Nat
  ilen : Nat := 8
  /-- it joins in the cluster's present cycle: grants of that cycle come before it (R165). -/
  fresh : Bool := false
  deriving DecidableEq, Repr

/-- A retained instance (R161), or a vacated context whose partner is live (R169). -/
structure Retain where
  cls : EngClass
  inst : Nat
  sh : Bool
  lid : Word
  gang : Nat
  since : Nat
  eng : EngState
  binding : Option Nat := none
  deriving DecidableEq, Repr

structure Cluster where
  tiles : SMap Tile := []
  leases : SMap Lease := []
  queue : List LReq := []
  /-- LEASETs of the present cycle: each is granted or fails when the cycle's evictions and grants are made (R159, R165). -/
  tries : List LReq := []
  /-- grant serial (R153). -/
  gen : Nat := 0
  /-- commands that reached an engine whose lease had ended: they end unwritten. -/
  lost : List QCmd := []
  retained : List Retain := []
  /-- operating class of its pool, the class whose clock it runs at, and whether that clock is gated (R363, R364, R371). -/
  pool : Nat := 2
  clk : Nat := 2
  gate : Bool := false
  /-- tile tables of virtual devices that do not run (R96, R351). -/
  saved : SMap (SMap Tile) := []
  copies : SMap Nat := []
  deriving DecidableEq, Repr

/-! ## Launches, queues, partitions -/

/-- Names a gang has used and the order in which they were freed (R91, R92). -/
structure Gang where
  lid : Word := 0
  gang : Nat := 0
  cluster : Nat := 0
  tnbase : Nat := 0
  tncount : Nat := 0
  started : Nat := 0
  retired : Nat := 0
  gen : Nat := 0
  halted : Bool := false
  /-- its virtual device does not run. -/
  away : Bool := false
  ended : Option Nat := none
  /-- its last block has retired: its tile window is free again (R97). -/
  gone : Bool := false
  /-- the recycled queue (R92), and warps whose TNEW is recorded (R91). -/
  freed : List Nat := []
  /-- names freed in the cycle that began at this time in 1/84 ns, in the order they stand there (R92). -/
  fresh : List Nat := []
  freshAt : Nat := 0
  /-- the TNEWs that wait, in order, each by its path as at Tile.parked (R91). -/
  newWait : List Nat := []
  deriving DecidableEq, Repr

/-- An entry of the process-group table (R387). -/
structure RankEnt where
  pkg : Nat
  die : Nat
  gbase : Nat
  gcount : Nat
  deriving DecidableEq, Repr

/-- Stages of a launch (R356). -/
inductive LStage where
  | waiting | ready | running | ended
  deriving DecidableEq, Repr

structure Launch where
  lid : Word := 0
  queue : Nat := 0
  part : Nat := 0
  vdev : Nat := 0
  id : Ident := {}
  devhash : Word := 0
  tiles : Nat := 0
  spadpg : Nat := 0
  batons : Nat := 1
  prio : Nat := 3
  opclass : Nat := 2
  overlap : Bool := false
  waiten : Bool := false
  sigen : Bool := false
  waitaddr : Nat := 0
  waitval : Word := 0
  sigaddr : Nat := 0
  sigval : Word := 0
  argsize : Nat := 0
  peakV : Nat := 0
  peakS : Nat := 0
  stage : LStage := .ready
  /-- the process-group table, one entry a rank. -/
  ranks : List RankEnt := []
  groupid : Nat := 0
  /-- per die, gangs placed so far. -/
  next : SMap Nat := []
  ended : Nat := 0
  gen : Nat := 0
  arrivedPeers : Nat := 0
  lctd : Nat := 0
  fault : Bool := false
  aborted : Bool := false
  double : Bool := false
  startT : Nat := 0
  /-- energy accumulator and lease quota when it started, blocks retired, and its status (R396). -/
  uj0 : Nat := 0
  grains0 : Nat := 0
  blocks : Nat := 0
  status : Nat := 0
  /-- the signal is visible from here on (R359). -/
  doneAt : Option Nat := none
  /-- pages it wrote, while a capture or a replay runs (R411), and the captured record it replays (R412). -/
  pages : List Nat := []
  rep : Option Nat := none
  /-- collective tags: the gang that owns one on a die, and commands issued with it (R275), at 256 × die + tag. -/
  tags : SMap (Nat × Nat) := []
  /-- collectives that have lost a participant: tag and number (R171). -/
  dead : List (Nat × Nat) := []
  /-- memory as it stood when the launch began, and the keys its lines were written under: what instruction fetch reads (R172). -/
  image : Option (Memory × SMap (Nat × Nat)) := none
  deriving DecidableEq, Repr

/-- A hardware queue (R354). -/
structure Queue where
  qbase : Nat := 0
  size : Nat := 0
  enable : Bool := false
  halted : Bool := false
  prio : Nat := 3
  part : Nat := 0
  vdev : Nat := 0
  qtail : Nat := 0
  qhead : Nat := 0
  qdone : Nat := 0
  status : Nat := 0
  reason : Nat := 0
  last : Word := 0
  deriving DecidableEq, Repr

/-- A metered quota (R389): limit and use. -/
structure Quota where
  limit : Nat := 0
  used : Nat := 0
  deriving DecidableEq, Repr

/-- A cached translation (R377): ASID, first page, pages, entry word. -/
structure Tlb where
  unit : Nat
  asid : Nat
  va : Nat
  size : Nat
  pte : Word
  deriving DecidableEq, Repr

structure Part where
  dies : List Nat := []
  tvec : Nat := 0
  shbase : Nat := 0
  ptbase : Nat := 0
  /-- the root that walks still use: PTBASE was written under an unchanged ASID and no TLBINV has followed (R378). -/
  oldRoot : Option Nat := none
  asid : Nat := 0
  keydom : Nat := 0
  domains : List Nat := []
  vote : Nat := 0
  /-- (die, link) to allowed classes where R381's defaults do not hold. -/
  fwallow : List (Nat × Nat × BitVec 5) := []
  fwlog : Bool := false
  fwaddr : Nat := 0
  fwcount : Nat := 0
  ctrbank : Nat := 0
  tlb : List Tlb := []
  energy : Quota := {}
  lease : Quota := {}
  launches : Quota := {}
  frames : Quota := {}
  furlong : Quota := {}
  qexh : BitVec 5 := 0
  /-- frames released again: the bank's count of assignments does not fall (R395). -/
  freed : Nat := 0
  ecap : Nat := 0
  /-- a quota trap waits for a warp that can take it (R393). -/
  held : Bool := false
  cur : Nat := 0
  /-- a slice has ended and the next has not begun: no block of the partition starts (R366). -/
  ending : Bool := false
  vdevs : List Nat := []
  slice : Nat := 10000
  sliceT : Nat := 0
  capFaults : Bool := false
  deriving DecidableEq, Repr

/-- A virtual device: its energy (R368) and its event counters (R394, R410). -/
structure VDev where
  uj : Nat := 0
  fj : Nat := 0
  counts : SMap Nat := []
  /-- lease activity of the present 1 ms window (R396): grants, evictions, revocations and grain·ns, at 4 × figure + class. -/
  act : SMap Nat := []
  deriving DecidableEq, Repr

/-- A voltage rail (R369). -/
structure Rail where
  steps : Nat := 104
  target : Nat := 104
  /-- when the next step falls due. -/
  t : Nat := 0
  hold : Option Nat := none
  deriving DecidableEq, Repr

/-- A record of the Assize journal (R396): header, payload words (of SIGN: the signature), and the hash of the record before. -/
structure JRec where
  seq : Nat
  jidx : Nat
  time : Nat
  vdev : Nat
  part : Nat
  kind : Nat
  words : List Nat
  sig : BitVec 912 := 0
  link : BitVec 512
  deriving DecidableEq, Repr

/-- An event that waits for a place in the ring (R399). -/
structure JWait where
  kind : Nat
  part : Nat
  vdev : Nat
  time : Nat
  words : List Nat
  /-- the ASZREC a NOTE comes from: warp and operation (R337). -/
  note : Option (Nat × Nat) := none
  deriving DecidableEq, Repr

structure Journal where
  ring : List JRec := []
  jidx : Nat := 0
  link : BitVec 512 := 0
  buffer : List JWait := []
  lost : Nat := 0
  /-- FIREWALL records that still count violations of their link and address (R396). -/
  fire : List JWait := []
  sinceSign : Nat := 0
  /-- SEQ of the last record of each partition (R394 JSEQ). -/
  jseq : SMap Nat := []
  deriving DecidableEq, Repr

/-- The management mailbox (R417): the command word without GO, GO, and what MBSTAT, MBARG and MBDATA hold. -/
structure Mailbox where
  cmd : Word := 0
  busy : Bool := false
  done : Bool := false
  dlen : Nat := 0
  tag : Nat := 0
  status : Nat := 0
  args : List Word := List.replicate 30 0
  data : List Byte := []
  deriving DecidableEq, Repr

/-- The Perch window (R402). -/
structure Perch where
  part : Nat := 255
  err : Bool := false
  smpCtl : Word := 0x80000
  smpCores : List Word := List.replicate 6 0
  srBase : Nat := 0
  srSize : Nat := 12
  trCtl : Word := 0
  trBase : Nat := 0
  trSize : Nat := 12
  /-- trace records that wait for space in the ring, without their SEQ (R407). -/
  trHeld : List (List Byte) := []
  stopLid : Word := 0
  stopSt : Nat := 0
  /-- STOPLID and the command word of the last STOPCMD, which STOPST reports on. -/
  stopOf : Word × Word := (0, 0)
  bps : List Word := List.replicate 8 0
  maddr : Nat := 0
  wsel : Word := 0
  deriving DecidableEq, Repr

/-- A publication descriptor of a function (R415) with the versions written (R146 to R148). -/
structure Window where
  va : Nat := 0
  len : Nat := 0
  ctr : Nat := 0
  off : Nat := 0
  /-- base, pages and BAR 2 offset in force since the latest PUBLISH (R415). -/
  live : Option (Nat × Nat × Nat) := none
  part : Nat := 0
  version : Nat := 0
  ptime : Nat := 0
  /-- writes to the window that no version covers yet, in coherence order: TD, physical address, and the byte before. -/
  later : List (Nat × Nat × Byte) := []
  deriving DecidableEq, Repr

/-- A Furlong port (R416). -/
structure Port where
  peerPkg : Nat := 0
  peerPort : Nat := 0
  lanes : Nat := 0
  state : Nat := 0
  txseq : Nat := 0
  retry : Nat := 0
  downs : Nat := 0
  deriving DecidableEq, Repr

/-- One partition of the signed firmware configuration (R380, R384, R389, R422): the values with reset code F. -/
structure PartCfg where
  id : Nat := 0
  p : Part := {}
  tframe : Nat := 0
  slope : Nat := 0
  deriving DecidableEq, Repr

/-- The signed configuration firmware installs (R422). -/
structure FwCfg where
  parts : List PartCfg := []
  queues : List (Nat × Nat × Nat) := []
  pools : List (Nat × Nat) := []
  frames : List (Nat × Nat × Nat) := []
  energy : List (Nat × Nat) := []
  level : Nat := 1
  stepping : Nat := 0
  serial : Nat := 0
  furid : Nat := 0
  /-- digest of the boot ROM, and the firmware image (R423). -/
  rom : List Byte := []
  image : List Byte := []
  /-- where firmware maps the functions' BAR 0 for supervisors (R354, R415): function f at this physical address + 4 MiB · f, in the
  IO die's space; 0 for nowhere (log 32). -/
  bar0 : Nat := 0
  deriving DecidableEq, Repr

/-- The start-up sequence under way (R422): the step that fails, 0 for none, and the ports that fail training, as a mask. -/
structure Boot where
  fail : Nat := 0
  ports : Nat := 0
  deriving DecidableEq, Repr

/-- Identity registers (R414). -/
structure Identity where
  devhash : Word := 0
  level : Nat := 0
  stepping : Nat := 0
  serial : Nat := 0
  bootst : Nat := 0
  furid : Nat := 0
  deriving DecidableEq, Repr

/-- A launch record of a capture, with the checksum once the launch has ended (R411). -/
structure CapRec where
  queue : Nat
  idx : Nat
  words : List Word
  lid : Word
  sum : Option (BitVec 256) := none
  deriving DecidableEq, Repr

/-- A replay capture (R411): the frames of the virtual device, what they held and under which keys. -/
structure Capture where
  part : Nat
  vdev : Nat
  time : Nat
  frames : List Nat
  mem : Memory
  doms : SMap (Nat × Nat)
  recs : List CapRec := []
  deriving DecidableEq, Repr

/-- A replay (R412) of `n` records: those not yet submitted, those submitted and not yet read, and what is reported for each launch. -/
structure Replay where
  vdev : Nat
  n : Nat := 0
  todo : List Nat
  sent : List Nat := []
  results : List (Nat × Bool) := []
  deriving DecidableEq, Repr

/-! ## Happenings and the order they come in (log 5) -/

/-- What a happening concerns: the operands of a row that no word encodes. -/
structure Arg where
  warp : Nat := 0
  core : Nat := 0
  cluster : Nat := 0
  key : Nat := 0
  op : Nat := 0
  unit : Nat := 0
  sel : Nat := 0
  queue : Nat := 0
  part : Nat := 0
  vdev : Nat := 0
  lid : Word := 0
  addr : Nat := 0
  off : Nat := 0
  len : Nat := 0
  val : Word := 0
  val2 : Nat := 0
  gang : Nat := 0
  block : Nat := 0
  path : Nat := 0
  ok : Bool := true
  bytes : List Byte := []
  list : List Nat := []
  fw : FwCfg := {}
  deriving DecidableEq, Repr

structure Happening where
  row : Instr
  arg : Arg
  deriving DecidableEq, Repr

/-- Where a memory error arises (R345): a line of memory, an aligned 8-byte unit of a scratchpad or of a tile,
or a register-pool word with the lanes it holds. -/
inductive ErrAt where
  | line (line : Nat)
  | spad (core unit : Nat)
  | tile (cluster name unit : Nat)
  | vreg (warp : Nat) (r : VIdx) (word : Nat)
  | sreg (warp : Nat) (r : SIdx)
  /-- an error that the code corrects, in work of the device that runs on a cluster: it is only counted (R345, R410). -/
  | soft (cluster : Nat)
  deriving DecidableEq, Repr

/-- An entry of the agenda: let the machine take its own next step, give a core the turn, serve one access of a load
early (R136), a happening, or a memory error. -/
inductive Choice where
  | go
  | turn (core : Nat)
  | serve (warp op lane sel : Nat)
  | arrive (warp op unit : Nat)
  | input (h : Happening)
  | error (e : ErrAt)
  deriving DecidableEq, Repr

/-- A target descriptor (R420). -/
structure CkTarget where
  addr : Nat
  len : Nat
  node : Nat
  furlong : Bool
  deriving DecidableEq, Repr

/-- Checkpoint and restore in progress (R418 to R421): state 0 none, 1 running, 2 done, 3 failed. -/
structure Ck where
  state : Nat := 0
  restoring : Bool := false
  id : Word := 0
  parts : List Nat := []
  targets : List CkTarget := []
  start : Nat := 0
  done : Nat := 0
  total : Nat := 0
  digest : BitVec 512 := 0
  deriving DecidableEq, Repr

/-- What a checkpoint saved, kept under its identifier: the bytes at its targets stand for it (log 17). -/
structure CkImage where
  start : Nat
  parts : List Nat
  manifest : List Byte
  /-- per unit: target, offset there, length with its header, digest. -/
  units : List (Nat × Nat × Nat × BitVec 256)
  frames : SMap (Nat × Nat)
  mem : Memory
  doms : SMap (Nat × Nat)
  /-- domains of each partition at the start (R421), and each cluster's grant serial and leases. -/
  owned : SMap (List Nat) := []
  leases : SMap (Nat × SMap Lease) := []
  cores : SMap (SMap Saved)
  tiles : SMap (SMap (SMap Tile))
  gangs : SMap Gang
  launches : SMap Launch
  deriving DecidableEq, Repr

/-- Parts of the package that stand once: the IO die and the front end. -/
structure IoDie where
  seq : Nat := 0
  queues : SMap Queue := []
  /-- round robin of placement: die, pool and class to the queue served last (R362). -/
  served : SMap Nat := []
  etable : SMap Nat := []
  rails : List Rail := List.replicate 3 {}
  frames : SMap (Nat × Nat) := []
  journal : Journal := {}
  mbox : Mailbox := {}
  ck : Ck := {}
  perch : Perch := {}
  windows : SMap Window := []
  ident : Identity := {}
  boot : Option Boot := none
  meas : BitVec 512 := 0
  ports : SMap Port := []
  fw : FwCfg := {}
  /-- host memory, and the regions of Furlong storage nodes (R419). -/
  hostMem : Memory := []
  nodes : SMap Memory := []
  ckImages : SMap CkImage := []
  capture : Option Capture := none
  replay : Option Replay := none
  /-- MSI-X signals sent, at 256 × function + vector (R413, R417). -/
  signals : SMap Nat := []
  /-- when the present 1 ms window ends (R392, R396). -/
  windowEnd : Nat := 1000000
  /-- key version of each domain, and when its latest KEY record was written (R386, R421). -/
  keyVer : SMap Nat := []
  /-- partitions whose queues a failed restore keeps disabled (R421). -/
  enBarred : List Nat := []
  keyTime : SMap Nat := []
  lineDom : SMap (Nat × Nat) := []
  ready : Bool := false
  recovery : Bool := false
  deriving DecidableEq, Repr

/-- The whole machine. -/
structure State where
  /-- the acting warp; the others stand in `warps`, keyed 32 × core + index. -/
  w : Warp := {}
  warps : SMap Warp := []
  cores : SMap Core := []
  clusters : SMap Cluster := []
  gangs : SMap Gang := []
  launches : SMap Launch := []
  parts : SMap Part := []
  vdevs : SMap VDev := []
  mem : Memory := []
  /-- poisoned lines of memory (R345). -/
  memPoison : List Nat := []
  horizon : SMap Nat := []
  /-- chain time in ticks of 2 ns (R128). -/
  tick : Nat := 0
  io : IoDie := {}
  /-- operands of the happening in progress. -/
  arg : Arg := {}
  /-- bytes from the current instruction to the next: 8, or 2 for a dictionary code. -/
  ilen : Nat := 8
  /-- warp indices of the block in `ableCore` judged able to issue (R432). -/
  able : List Nat := []
  ableCore : Nat := 0
  /-- happenings that follow at once from what has been done. -/
  due : List Happening := []
  /-- the order of what the spec leaves open (log 5). -/
  agenda : List Choice := []
  freeCtr : Nat := 0
  arrCtr : Nat := 0
  /-- writes of agents other than warps that have not been applied (R130, R148). -/
  ext : List Op := []
  deriving DecidableEq, Repr

/-- Power-on (R422): nothing resident, chain time 0, the boot ROM has not run. -/
def State.reset : State := {}

/-- The machine stops with a fault. No step of this model raises one: everything the spec calls a fault or a trap is a
next state, in which a handler is entered, the warp is FAULTED or the gang has ended. -/
inductive Fault where
  /-- Raised by nobody: kept so that the type is not empty. Safe. -/
  | none
  deriving DecidableEq, Repr

/-- Why there is no meaning for an instruction. -/
inductive Refusal where
  /-- The instruction's row is not modelled; raised by arms of exec that have no meaning yet. Safe. -/
  | notModelled (mnemonic : String)
  deriving DecidableEq, Repr

/-- The outcome of a meaning or a step. -/
abbrev Out := Host.Outcome State Fault Refusal

end Sys2Proof.Machine
end

