-- ==== Sys2Proof/Machine/Access.lean ====
section
/-! DEFINITION. Where things stand in the state: warps, cores, clusters, gangs, and the plain views of them that rules speak of. -/
namespace Sys2Proof.Machine

/-- The key of a warp: 32 × core + index. -/
def Warp.key (w : Warp) : Nat := 32 * w.core + w.idx
def Warp.cluster (w : Warp) : Nat := w.core / 8
def Warp.die (w : Warp) : Nat := w.core / 64
def Warp.W (w : Warp) : Nat := w.id.W

namespace State

def W (s : State) : Nat := s.w.id.W
/-- Chain time in ns, the same in every unit: a skew of zero, where R128 states a bound (log 43). -/
def now (s : State) : Nat := 2 * s.tick
def core (s : State) (c : Nat) : Core := s.cores.getD c {}
def cluster (s : State) (k : Nat) : Cluster := s.clusters.getD k {}
def part (s : State) (p : Nat) : Part := s.parts.getD p {}
def vdev (s : State) (v : Nat) : VDev := s.vdevs.getD v {}
def setCore (s : State) (c : Nat) (x : Core) : State := { s with cores := s.cores.put c x }
def setCluster (s : State) (k : Nat) (x : Cluster) : State := { s with clusters := s.clusters.put k x }
def setPart (s : State) (p : Nat) (x : Part) : State := { s with parts := s.parts.put p x }
def setVDev (s : State) (v : Nat) (x : VDev) : State := { s with vdevs := s.vdevs.put v x }
def modCore (s : State) (c : Nat) (f : Core → Core) : State := s.setCore c (f (s.core c))
def modCluster (s : State) (k : Nat) (f : Cluster → Cluster) : State := s.setCluster k (f (s.cluster k))
def modPart (s : State) (p : Nat) (f : Part → Part) : State := s.setPart p (f (s.part p))
def setW (s : State) (w : Warp) : State := { s with w := w }
def modIo (s : State) (f : IoDie → IoDie) : State := { s with io := f s.io }
def setPath (s : State) (p : Path) : State := { s with w := { s.w with p := p } }

/-- The key of a gang: launch and index. -/
def gangKey (lid : Word) (g : Nat) : Nat := lid.toNat * 2 ^ 32 + g
def gang (s : State) (lid : Word) (g : Nat) : Gang := s.gangs.getD (gangKey lid g) {}
def modGang (s : State) (lid : Word) (g : Nat) (f : Gang → Gang) : State :=
  { s with gangs := s.gangs.put (gangKey lid g) (f (s.gang lid g)) }
def launch (s : State) (lid : Word) : Launch := s.launches.getD lid.toNat {}
def modLaunch (s : State) (lid : Word) (f : Launch → Launch) : State :=
  { s with launches := s.launches.put lid.toNat (f (s.launch lid)) }

def isCur (s : State) (k : Nat) : Bool := s.w.real && s.w.key == k
/-- A warp by its key. -/
def warp? (s : State) (k : Nat) : Option Warp := if s.isCur k then some s.w else s.warps.get? k
def setWarp (s : State) (k : Nat) (w : Warp) : State :=
  if s.isCur k then { s with w := w } else { s with warps := s.warps.put k w }
def modWarp (s : State) (k : Nat) (f : Warp → Warp) : State :=
  match s.warp? k with
  | some w => s.setWarp k (f w)
  | none => s
/-- Every resident warp, in ascending key order. -/
def allWarps (s : State) : List Warp :=
  if s.w.real then (s.warps.put s.w.key s.w).vals else s.warps.vals
/-- Makes a warp the acting one. -/
def focus (s : State) (k : Nat) : State :=
  if s.isCur k then s
  else match s.warps.get? k with
    | none => s
    | some w =>
      let rest := s.warps.del k
      { s with w := w, warps := if s.w.real then rest.put s.w.key s.w else rest }
/-- Takes a warp out of the machine. -/
def dropWarp (s : State) (k : Nat) : State :=
  if s.isCur k then { s with w := {} } else { s with warps := s.warps.del k }

/-- The warps of a core's block in ascending index. -/
def blockWarps (s : State) (c : Nat) : List Warp := s.allWarps.filter fun w => w.core == c
def gangWarps (s : State) (lid : Word) (g : Nat) : List Warp :=
  s.allWarps.filter fun w => w.id.lid == lid && w.id.gang == g
/-- Warp i of the acting warp's block. -/
def sibling? (s : State) (i : Nat) : Option Warp := s.warp? (32 * s.w.core + i)

/-- The rail of a die and its voltage in steps (R369). -/
def volt (s : State) (die : Nat) : Nat := (s.io.rails.getD (die / 2) {}).steps

/-- R413: an MSI-X signal of a function's vector. -/
def signal (s : State) (fn vec : Nat) : State :=
  s.modIo fun io => { io with signals := io.signals.put (256 * fn + vec) (io.signals.getD (256 * fn + vec) 0 + 1) }
/-- R396: lease activity of a virtual device in the present window: figure k of class c. -/
def actOn (s : State) (vd k c n : Nat) : State :=
  let v := s.vdev vd
  s.setVDev vd { v with act := v.act.put (4 * k + c) (v.act.getD (4 * k + c) 0 + n) }

/-- Counts an event of R410 for the acting warp's cluster. -/
def count (s : State) (k : Nat) : State :=
  let v := s.vdev s.w.id.vdev
  let i := 64 + 16 * s.w.cluster + k
  s.setVDev s.w.id.vdev { v with counts := v.counts.put i (v.counts.getD i 0 + 1) }
def countOn (s : State) (vdev cl k : Nat) : State :=
  let v := s.vdev vdev
  let i := 64 + 16 * cl + k
  s.setVDev vdev { v with counts := v.counts.put i (v.counts.getD i 0 + 1) }

end State

/-- Who writes where no warp does: an engine, the host, the front end. No warp has this key. -/
def agentKey : Nat := 2 ^ 40
/-- Every outstanding operation: the warps' and the other agents' (R130). -/
def State.allOps (s : State) : List Op := s.allWarps.flatMap Warp.ops ++ s.ext

/-- R368: index of a width. -/
def widthCode (W : Nat) : Nat := if W = 16 then 0 else if W = 32 then 1 else 2

/-- R368: adds n charges of class c and width code w, in 1/16 pJ, to a virtual device. -/
def charge (s : State) (vdev die c w n : Nat) : State :=
  let e := s.io.etable.getD ((c * 3 + w) * 49 + (s.volt die - 104)) 0
  if e = 0 then s
  else
    let v := s.vdev vdev
    s.setVDev vdev { v with uj := (v.uj + n * e) % 2 ^ 64 }

/-- R199: FSUCC as walks and passes of this cycle see it. -/
def Warp.walkFs (w : Warp) : Nat := w.fsuccOld.getD w.fsucc
/-- Holding (R29): the warp holds a baton. -/
def Warp.holding (w : Warp) : Bool := w.baton.isSome
/-- Stopped (R29): halted by HALTG or stopped by the Perch port. -/
def Warp.isStopped (w : Warp) : Bool := w.halted || w.perched
/-- Able to take a baton (R32, R38). -/
def Warp.eligible (w : Warp) : Bool := !w.holding && w.life == .live && !w.isStopped

/-- Number of live path-table entries (R49). -/
def Warp.npaths (w : Warp) : Nat := 1 + w.paths.length

/-- R74: the class counters; an operation counts until it and every older one of its class is complete (R75). -/
def Warp.cnt (w : Warp) (c : Cls) : Nat := (w.ops.filter fun o => o.cls == c).length

/-- Drops completed operations that no older incomplete one of their class precedes (R75). -/
def retire (c : Cls) : List Op → Bool → List Op
  | [], _ => []
  | o :: os, blocked =>
    if o.cls == c then
      (if o.done && !blocked then retire c os false else o :: retire c os true)
    else o :: retire c os blocked
def Warp.retireOps (w : Warp) (c : Cls) : Warp := { w with ops := retire c w.ops false }
def Warp.op? (w : Warp) (id : Nat) : Option Op := w.ops.find? fun o => o.id == id
def Warp.modOp (w : Warp) (id : Nat) (f : Op → Op) : Warp :=
  { w with ops := w.ops.map fun o => if o.id == id then f o else o }
/-- Marks an operation complete and lets its counter fall in issue order. -/
def Warp.complete (w : Warp) (id : Nat) : Warp :=
  match w.op? id with
  | none => w
  | some o => (w.modOp id fun o => { o with done := true }).retireOps o.cls

end Sys2Proof.Machine
end

