-- ==== Sys2Proof/Machine/Regs.lean ====
section
/-! DEFINITION. Reading, writing, allocating and freeing the registers of the acting warp (spec/03 R54 to R65). -/
namespace Sys2Proof.Machine

/-- v239 and s120 to s123, the inbox, are mapped for the warp's whole life and counted nowhere (R59). -/
def inboxV (r : Nat) : Bool := r == 239
def inboxS (r : Nat) : Bool := decide (120 ≤ r) && decide (r ≤ 123)

/-! ## What outstanding operations have still to write (R242, log 7) -/

/-- The lanes an operation writes when it completes. -/
def Op.lanes (o : Op) : Word :=
  match o.k with
  | .tread _ => BitVec.allOnes 64
  | .scacc _ _ _ _ m _ _ => m
  | _ => maskOf 64 fun L => o.accs.any fun a => a.lane == L
/-- The lanes of a vector register that it has still to write. -/
def Op.owesV (o : Op) (r : VIdx) : Word :=
  match o.dst with
  | .vec d pair =>
    if o.done then 0
    else o.lanes &&& ((if d = r ∧ ¬ o.port.1 then o.left.1 else 0) ||| (if pair ∧ d + 1 = r ∧ ¬ o.port.2 then o.left.2 else 0))
  | _ => 0
def Op.owesS (o : Op) (r : SIdx) : Bool := !o.done && o.dst == .sca r && o.left.1 != 0
/-- A younger write takes lanes of a vector register, or a scalar. -/
def Op.yieldV (o : Op) (r : VIdx) (m : Word) : Op :=
  match o.dst with
  | .vec d pair => { o with left := (if d = r then o.left.1 &&& ~~~m else o.left.1, if pair ∧ d + 1 = r then o.left.2 &&& ~~~m else o.left.2) }
  | _ => o
def Op.yieldS (o : Op) (r : SIdx) : Op := if o.dst = .sca r then { o with left := (0, 0) } else o

namespace Warp

/-- R55: s0 reads zero; R56: an unmapped register reads zero. -/
def rdS (w : Warp) (r : SIdx) : Word :=
  if r = 0 then 0 else match w.sregs.get? r.toNat with
    | some x => x.val
    | none => 0

/-- A mask register; m0 is the current path's exec (R46). -/
def rdM (w : Warp) (m : MIdx) : Word := if m = 0 then w.p.exec else w.masks.getD (m.toNat - 1) 0

/-- R215: a write to m0 is ANDed with the path's lane set; R5: bits at or above W are zero. -/
def wrM (w : Warp) (m : MIdx) (v : Word) : Warp :=
  let v := v &&& allLanes w.W
  if m = 0 then { w with p := { w.p with exec := v &&& w.p.lanes } }
  else { w with masks := putAt 0 w.masks (m.toNat - 1) v }

def sd (w : Warp) (d : Nat) : SDesc := w.sds.getD d {}
/-- R69: v240 to v247 are ports while bound. -/
def portOf (w : Warp) (r : VIdx) : Option Nat :=
  if 240 ≤ r.toNat ∧ r.toNat ≤ 247 then
    (if (w.sd (r.toNat - 240)).bound then some (r.toNat - 240) else none)
  else none

/-- One lane of a vector source: the elements read for a bound port (R70), else the register; unmapped reads zero (R56). -/
def lane (w : Warp) (r : VIdx) (L : Nat) : Lane :=
  match w.portOf r with
  | some p =>
    match w.p.stage with
    | some st => match st.ports.find? fun e => e.1 == p with
      | some e => e.2.1.getD L 0
      | none => 0
    | none => 0
  | none =>
    match w.vregs.get? r.toNat with
    | some x => x.lanes.getD L 0
    | none => 0

/-- One lane of a bracket register. -/
def brkLane (w : Warp) (b : BIdx) (L : Nat) : Lane := (w.brk.getD b.toNat []).getD L 0

/-- R46: the lanes an instruction affects. -/
def activeMask (w : Warp) (ms : MIdx) : Word :=
  let e := w.p.exec &&& allLanes w.W
  if ms = 0 then e else e &&& w.rdM ms
def act (w : Warp) (ms : MIdx) (L : Nat) : Bool := (w.activeMask ms).getLsbD L
/-- R48: exec all ones over lanes 0 to W−1. -/
def full (w : Warp) : Bool := w.p.exec &&& allLanes w.W == allLanes w.W

/-- Registers the warp holds, mapped or spilled, the inbox apart (R59, R60). -/
def mappedV (w : Warp) : Nat := (w.vregs.filter fun e => !inboxV e.1).length
def mappedS (w : Warp) : Nat := (w.sregs.filter fun e => !inboxS e.1).length

/-- R57, R61: frees a vector register; an entry register takes its place in the reservation with it. -/
def freeV (w : Warp) (r : VIdx) : Warp :=
  if inboxV r.toNat || (w.portOf r).isSome then w
  else match w.vregs.get? r.toNat with
    | none => w
    | some x => { w with
        vregs := w.vregs.del r.toNat
        resV := if x.entry then max w.id.floorV (w.resV - 1) else w.resV }
def freeS (w : Warp) (r : SIdx) : Warp :=
  if r = 0 || inboxS r.toNat then w
  else match w.sregs.get? r.toNat with
    | none => w
    | some x => { w with
        sregs := w.sregs.del r.toNat
        resS := if x.entry then max w.id.floorS (w.resS - 1) else w.resS }

def pendingV (w : Warp) (r : VIdx) : Bool := (w.vregs.get? r.toNat).elim false fun x => x.pend.isSome
def pendingS (w : Warp) (r : SIdx) : Bool := (w.sregs.get? r.toNat).elim false fun x => x.pend.isSome
/-- The operation of a parked instruction: it has not begun to read, and its register does not wait for it. -/
def recorded (w : Warp) (id : Nat) : Bool := w.park.any (fun p => p.op == id) || w.parks.any fun e => e.2.1.op == id
/-- The instruction that will write a register last among the operations outstanding (R405); `but` is left out. -/
def claimV (w : Warp) (ops : List Op) (r : VIdx) (but : Nat → Bool) : Option Nat :=
  (ops.filter fun o => !but o.id && !w.recorded o.id && o.owesV r != 0).getLast?.map Op.pc
def claimS (w : Warp) (ops : List Op) (r : SIdx) (but : Nat → Bool) : Option Nat :=
  (ops.filter fun o => !but o.id && !w.recorded o.id && o.owesS r).getLast?.map Op.pc
/-- The operations after a write of a register: those that were to write it do not any more, in the lanes written. -/
def opsV (w : Warp) (r : VIdx) (m : Word) : List Op :=
  if w.pendingV r then w.ops.map fun o => if w.recorded o.id then o else o.yieldV r m else w.ops
def opsS (w : Warp) (r : SIdx) : List Op :=
  if w.pendingS r then w.ops.map fun o => if w.recorded o.id then o else o.yieldS r else w.ops

/-- R58: the lanes of a mask are written; the others keep their value, or zero. A write clears the poison of its lanes (R345). -/
def mergeV (W : Nat) (m : Word) (f : Nat → Lane) (x : VReg) : VReg :=
  { x with
    lanes := lanes W (fun L => if m.getLsbD L then f L else x.lanes.getD L 0),
    spilled := false,
    poison := x.poison.filter fun e => !m.getLsbD e.1 }
/-- Data reach a register. -/
def putV (w : Warp) (r : VIdx) (m : Word) (f : Nat → Lane) (pend : Option Nat) : Warp :=
  { w with vregs := w.vregs.put r.toNat { mergeV w.W m f ((w.vregs.get? r.toNat).getD ⟨[], false, false, [], none⟩) with pend := pend } }
/-- An instruction writes a register: older operations do not write these lanes any more (log 7). -/
def wrV (w : Warp) (r : VIdx) (m : Word) (f : Nat → Lane) : Warp :=
  { w.putV r m f (if w.pendingV r then w.claimV (w.opsV r m) r (fun _ => false) else none) with ops := w.opsV r m }

/-- R55: a write to s0 is discarded. -/
def wrS (w : Warp) (r : SIdx) (v : Word) : Warp :=
  if r = 0 then w
  else
    let x : SReg := (w.sregs.get? r.toNat).getD ⟨0, false, false, none, none⟩
    { w with sregs := w.sregs.put r.toNat { x with val := v, spilled := false, poison := none, pend := none }, ops := w.opsS r }

/-- Marks a register pending until an outstanding operation writes it (R242); older ones do not write these lanes any more. -/
def pendV (w : Warp) (r : VIdx) (m : Word) (id pc : Nat) : Warp :=
  let x : VReg := (w.vregs.get? r.toNat).getD ⟨lanes w.W fun _ => 0, false, false, [], none⟩
  { w with
    vregs := w.vregs.put r.toNat { x with pend := some pc, spilled := false },
    ops := if w.pendingV r then w.ops.map fun o => if o.id < id && !w.recorded o.id then o.yieldV r m else o else w.ops }
def pendS (w : Warp) (r : SIdx) (pc : Nat) : Warp :=
  if r = 0 then w
  else
    let x : SReg := (w.sregs.get? r.toNat).getD ⟨0, false, false, none, none⟩
    { w with sregs := w.sregs.put r.toNat { x with pend := some pc, spilled := false }, ops := w.opsS r }
/-- A register no longer waits for an operation; it waits on for another that is to write it. -/
def unpendV (w : Warp) (r : VIdx) (id : Nat) : Warp :=
  { w with vregs := w.vregs.modify r.toNat fun x => { x with pend := w.claimV w.ops r fun i => i == id } }
/-- The result of an operation comes to a vector register, in the lanes that are still its own. -/
def landV (w : Warp) (id : Nat) (r : VIdx) (hi : Bool) (m : Word) (f : Nat → Lane) (bad : List (Nat × Nat)) : Warp :=
  let left := ((w.op? id).map Op.left).getD (BitVec.allOnes 64, BitVec.allOnes 64)
  let m := m &&& if hi then left.2 else left.1
  let w := if m = 0 then w.unpendV r id else w.putV r m f (w.claimV w.ops r fun i => i == id)
  let bad := bad.filter fun e => m.getLsbD e.1
  if bad.isEmpty then w else { w with vregs := w.vregs.modify r.toNat fun x => { x with poison := x.poison ++ bad } }
/-- And to a scalar, unless a younger write has taken it. -/
def landS (w : Warp) (id : Nat) (r : SIdx) (v : Word) (bad : Option Nat) : Warp :=
  let own := ((w.op? id).map fun o => o.left.1 != 0).getD true
  if r = 0 ∨ !own then w
  else
    let x : SReg := (w.sregs.get? r.toNat).getD ⟨0, false, false, none, none⟩
    { w with sregs := w.sregs.put r.toNat { x with
        val := v, spilled := false, poison := bad, pend := w.claimS w.ops r fun i => i == id } }
/-- Marks lanes poisoned with the addresses their data came from (R345). -/
def poisonV (w : Warp) (r : VIdx) (l : List (Nat × Nat)) : Warp :=
  { w with vregs := w.vregs.modify r.toNat fun x => { x with poison := x.poison ++ l } }
def poisonS (w : Warp) (r : SIdx) (a : Nat) : Warp :=
  { w with sregs := w.sregs.modify r.toNat fun x => { x with poison := some a } }

/-- R63: a read refills a spilled register, which changes no value. -/
def refillV (w : Warp) (r : VIdx) : Warp := { w with vregs := w.vregs.modify r.toNat fun x => { x with spilled := false } }
def refillS (w : Warp) (r : SIdx) : Warp := { w with sregs := w.sregs.modify r.toNat fun x => { x with spilled := false } }

/-- How many of some destinations a write would map for the first time (R57, R60). -/
def newV (w : Warp) (rs : List VIdx) : Nat :=
  (rs.filter fun r => !inboxV r.toNat && (w.portOf r).isNone && !w.vregs.has r.toNat).length
def newS (w : Warp) (rs : List SIdx) : Nat :=
  (rs.filter fun r => r != 0 && !inboxS r.toNat && !w.sregs.has r.toNat).length
/-- R60: a first write beyond the reservation. -/
def overLive (w : Warp) (vs : List VIdx) (ss : List SIdx) : Bool :=
  (decide (0 < w.newV vs) && decide (w.resV < w.mappedV + w.newV vs)) ||
  (decide (0 < w.newS ss) && decide (w.resS < w.mappedS + w.newS ss))

/-- R64: a FAULTED warp's registers are spilled, where they stay readable; its reservation is gone. -/
def spillAll (w : Warp) : Warp :=
  { w with
    vregs := w.vregs.mapVals fun _ x => { x with spilled := true },
    sregs := w.sregs.mapVals fun _ x => { x with spilled := true },
    resV := 0, resS := 0, owed := none }
/-- Entry registers are those mapped when a header's request is settled (R60, R63). -/
def markEntry (w : Warp) : Warp :=
  { w with
    vregs := w.vregs.mapVals fun _ x => { x with entry := true },
    sregs := w.sregs.mapVals fun _ x => { x with entry := true } }

/-- R60: what a warp asks for at a header. -/
def request (w : Warp) (hdr : Word) (liveV liveS : Word → Nat) (extraS : Nat) : Nat × Nat :=
  (max w.id.floorV (min (w.mappedV + liveV hdr) 256), max w.id.floorS (min (w.mappedS + liveS hdr + extraS) 127))

/-- R281: a change that comes from outside an INV's run reaches the registers and flags of the last boundary as well. -/
def outside (w : Warp) (f : Warp → Warp) : Warp :=
  match w.inv with
  | none => f w
  | some r =>
    let x := f { w with vregs := r.snap.vregs, sregs := r.snap.sregs, fpstat := r.snap.fpstat
                        ops := (w.ops.filter fun o => decide (o.id < r.snap.opNext)).map fun o => { o with left := o.left0 } }
    { f w with inv := some { r with snap := { r.snap with vregs := x.vregs, sregs := x.sregs, fpstat := x.fpstat } } }
/-- What the completion of an operation does to the warp: one that was outstanding at an INV's last boundary comes from outside the
run (R281). -/
def result (w : Warp) (id : Nat) (f : Warp → Warp) : Warp :=
  if w.inv.all fun r => decide (id < r.snap.opNext) then w.outside f else f w

/-- An INV has come to a boundary: the lanes its outstanding operations have still to write are those of the boundary. -/
def markBoundary (w : Warp) : Warp := { w with ops := w.ops.map fun o => { o with left0 := o.left } }

end Warp

/-- R59: physical registers a warp takes from the core's pools. -/
def Warp.physV (w : Warp) : Nat := if w.life == .live && !w.shadow then (w.resV + 1) * (w.W / 16) else 0
def Warp.physS (w : Warp) : Nat := if w.life == .live && !w.shadow then w.resS + 4 else 0
def poolV (s : State) (c : Nat) : Nat := Config.vectorPool - ((s.blockWarps c).map Warp.physV).sum
def poolS (s : State) (c : Nat) : Nat := Config.scalarPool - ((s.blockWarps c).map Warp.physS).sum
/-- R60, R61: whether a request fits what is free. -/
def fits (s : State) (w : Warp) (r : Nat × Nat) : Bool :=
  decide ((r.1 - w.resV) * (w.W / 16) ≤ poolV s w.core) && decide (r.2 - w.resS ≤ poolS s w.core)

end Sys2Proof.Machine
end

