-- ==== Sys2Proof/Machine/Shake.lean ====
section
/-! DEFINITION. SHAKE256, the hash of spec/17 R322, spec/20 R385, R397 and spec/21 R411, R420, R423. The spec names the function, which FIPS 202 defines (log 13). -/
namespace Sys2Proof.Machine

/-! ## The permutation on 1,600 bits

The state is one number: bit 64 (x + 5 y) + z is bit z of the lane in column x of plane y. A plane is 320 bits. -/

/-- A plane turned so that column x holds what column x + k held. -/
def planeTurn (p k : Nat) : Nat := (p >>> (64 * k) ||| p <<< (320 - 64 * k)) % 2 ^ 320
/-- Bit 0 of every lane of a plane. -/
def laneLsbs : Nat := 1 + 2 ^ 64 + 2 ^ 128 + 2 ^ 192 + 2 ^ 256
/-- Each lane of a plane turned left by one bit. -/
def planeRol1 (p : Nat) : Nat := (p <<< 1) % 2 ^ 320 &&& (2 ^ 320 - 1 - laneLsbs) ||| (p >>> 63) &&& laneLsbs
/-- One plane in each of the five places. -/
def allPlanes (p : Nat) : Nat := p * (1 + 2 ^ 320 + 2 ^ 640 + 2 ^ 960 + 2 ^ 1280)
def planeOf (a y : Nat) : Nat := a >>> (320 * y) % 2 ^ 320
/-- Every bit is flipped by the parity of two neighbouring columns. -/
def mixColumns5 (a : Nat) : Nat :=
  let c := planeOf a 0 ^^^ planeOf a 1 ^^^ planeOf a 2 ^^^ planeOf a 3 ^^^ planeOf a 4
  a ^^^ allPlanes (planeTurn c 4 ^^^ planeRol1 (planeTurn c 1))
/-- The walk through the 24 lanes off the origin: from column x of plane y to column y of plane 2 x + 3 y. The lane at step t goes to the
place of step t + 1, turned left by (t + 1)(t + 2) / 2 bits. -/
def walkLanes (a : Nat) : Nat → Nat → Nat → Nat
  | 0, _, _ => a % 2 ^ 64
  | n + 1, x, y =>
    let t := 23 - n
    let turn := (t + 1) * (t + 2) / 2 % 64
    let v := a >>> (64 * (x + 5 * y)) % 2 ^ 64
    let y' := (2 * x + 3 * y) % 5
    (((v <<< turn) % 2 ^ 64 ||| v >>> (64 - turn)) <<< (64 * (y + 5 * y'))) ||| walkLanes a n y y'
/-- In each row, a bit is flipped where the next is 0 and the one after it is 1. -/
def rowStep (a : Nat) : Nat :=
  let row := fun (p : Nat) => p ^^^ ((2 ^ 320 - 1 - planeTurn p 1) &&& planeTurn p 2)
  [4, 3, 2, 1, 0].foldl (fun acc y => acc * 2 ^ 320 + row (planeOf a y)) 0
/-- A step of the 8-bit shift register with feedback x^8 + x^6 + x^5 + x^4 + 1, whose output bits the round constants are made of. -/
def lfsr (r : Nat) : Nat := if r < 128 then 2 * r else (2 * r) ^^^ 0x171
/-- Bits 2^j - 1 of a round's constant for the j given, and the register after them. -/
def roundBits (r : Nat) : List Nat → Nat × Nat
  | [] => (0, r)
  | j :: l =>
    let x := roundBits (lfsr r) l
    (r % 2 * 2 ^ (2 ^ j - 1) + x.1, x.2)
/-- n rounds. -/
def rounds : Nat → Nat → Nat → Nat
  | 0, _, a => a
  | n + 1, r, a =>
    let k := roundBits r [0, 1, 2, 3, 4, 5, 6]
    rounds n k.2 (rowStep (walkLanes (mixColumns5 a) 24 1 0) ^^^ k.1)
def permute (a : Nat) : Nat := rounds 24 1 a

/-! ## The sponge -/

/-- The rate of SHAKE256 in bytes. -/
def shakeRate : Nat := 136
/-- A message taken in from a state: whole blocks, then the rest with 0x1F after it and bit 7 of the block's last byte. -/
def takeIn : Nat → List Byte → Nat → Nat
  | 0, m, a => permute (a ^^^ (leVal (m ++ [0x1F]) ^^^ 2 ^ (8 * shakeRate - 1)))
  | n + 1, m, a => takeIn n (m.drop shakeRate) (permute (a ^^^ leVal (m.take shakeRate)))
/-- The first output block, the first byte in the lowest bits. -/
def shakeOut (m : List Byte) : Nat := takeIn (m.length / shakeRate) m 0
/-- 32 bytes of output (R397, R411, R420). -/
def shake256 (m : List Byte) : BitVec 256 := BitVec.ofNat 256 (shakeOut m)
/-- 64 bytes of output (R322, R385, R397, R423). -/
def shake512 (m : List Byte) : BitVec 512 := BitVec.ofNat 512 (shakeOut m)

end Sys2Proof.Machine
end

