-- ==== Sys2Proof/Machine/Xts.lean ====
section
/-! DEFINITION. AES-256 in XTS mode over a line, and the keys of a key domain (spec/20 R385). The spec names AES-256 and IEEE 1619, which FIPS 197 and IEEE 1619 define (log 13). -/
namespace Sys2Proof.Machine

/-! ## The field of 256 elements -/

/-- Times x, modulo x^8 + x^4 + x^3 + x + 1. -/
def gfx (a : Nat) : Nat := if a < 128 then 2 * a else (2 * a) ^^^ 0x11B
/-- The product, by the n lowest bits of b. -/
def gfMul : Nat → Nat → Nat → Nat
  | 0, _, _ => 0
  | n + 1, a, b => (if b % 2 = 1 then a else 0) ^^^ gfMul n (gfx a) (b / 2)
/-- The inverse, and 0 of 0: the power 254, as the product of seven squares. -/
def gfInv (a : Nat) : Nat :=
  let sq := fun (x : Nat) => gfMul 8 x x
  let go := fun (p : Nat × Nat) (_ : Nat) => let y := sq p.1; (y, gfMul 8 p.2 y)
  ((List.range 7).foldl go (a, 1)).2
def rol8 (a n : Nat) : Nat := (a <<< n) % 256 ||| a >>> (8 - n)
def sbox (a : Nat) : Nat := let b := gfInv a; b ^^^ rol8 b 1 ^^^ rol8 b 2 ^^^ rol8 b 3 ^^^ rol8 b 4 ^^^ 0x63
def sboxInv (a : Nat) : Nat := gfInv (rol8 a 1 ^^^ rol8 a 3 ^^^ rol8 a 6 ^^^ 0x05)

/-! ## One block: 16 bytes, column by column -/

abbrev Block16 := List Nat
def xor16 (a b : List Nat) : List Nat := (a.zip b).map fun p => p.1 ^^^ p.2
/-- Row r of the block turned by r columns: to the left, or back with `back`. -/
def turnRows (back : Bool) (b : Block16) : Block16 :=
  (List.range 16).map fun i => b.getD ((if back then i + 16 - 4 * (i % 4) else i + 4 * (i % 4)) % 16) 0
/-- Each column times a circulant matrix with the first row given. -/
def timesRow (m : List Nat) (b : Block16) : Block16 :=
  (List.range 16).map fun i =>
    ((List.range 4).map fun j => gfMul 8 (b.getD (i / 4 * 4 + j) 0) (m.getD ((j + 4 - i % 4) % 4) 0)).foldl (fun x y => x ^^^ y) 0
/-- The key schedule, the newest word first: n more words after the eight of the key. -/
def expandKey : Nat → List (List Nat) → List (List Nat)
  | 0, ws => ws
  | n + 1, ws =>
    let prev := ws.headD []
    let i := ws.length
    let t :=
      if i % 8 = 0 then xor16 ((prev.drop 1 ++ prev.take 1).map sbox) [2 ^ (i / 8 - 1), 0, 0, 0]
      else if i % 8 = 4 then prev.map sbox else prev
    expandKey n (xor16 (ws.getD 7 []) t :: ws)
/-- The 15 round keys of a 256-bit key. -/
def roundKeys (key : Nat) : List Block16 :=
  let bs := (leBytes 32 key).map BitVec.toNat
  let ws := (expandKey 52 ((List.range 8).map fun i => (bs.drop (4 * (7 - i))).take 4)).reverse
  (List.range 15).map fun r => ((ws.drop (4 * r)).take 4).flatten
def encRound (b k : Block16) : Block16 := xor16 (timesRow [2, 3, 1, 1] (turnRows false (b.map sbox))) k
def decRound (b k : Block16) : Block16 := ((turnRows true (timesRow [14, 11, 13, 9] (xor16 b k))).map sboxInv)
def encBlock (ks : List Block16) (b : Block16) : Block16 :=
  xor16 (turnRows false ((((ks.drop 1).take 13).foldl encRound (xor16 b (ks.headD []))).map sbox)) (ks.getD 14 [])
def decBlock (ks : List Block16) (b : Block16) : Block16 :=
  xor16 (((ks.drop 1).take 13).reverse.foldl decRound ((turnRows true (xor16 b (ks.getD 14 []))).map sboxInv)) (ks.headD [])
/-- A block function on 128-bit numbers, the first byte in the lowest bits. -/
def onNat (f : Block16 → Block16) (n : Nat) : Nat := leVal ((f ((leBytes 16 n).map BitVec.toNat)).map (BitVec.ofNat 8))

/-! ## A line under a domain's keys -/

/-- Times α: x in the field of 2^128 elements. -/
def alphaMul (t : Nat) : Nat := if t < 2 ^ 127 then 2 * t else (2 * t % 2 ^ 128) ^^^ 0x87
/-- XTS over n blocks with the tweak t. -/
def xtsBlocks (f : Nat → Nat) : Nat → Nat → Nat → Nat
  | 0, _, _ => 0
  | n + 1, t, v => (f (v % 2 ^ 128 ^^^ t) ^^^ t) + 2 ^ 128 * xtsBlocks f n (alphaMul t) (v / 2 ^ 128)
/-- R385: the 64-byte data unit, its tweak the number of the line. -/
def xtsLine (dec : Bool) (key : BitVec 512) (line : Nat) (v : BitVec 512) : BitVec 512 :=
  let ks := roundKeys (key.toNat % 2 ^ 256)
  let t := onNat (encBlock (roundKeys (key.toNat / 2 ^ 256))) line
  BitVec.ofNat 512 (xtsBlocks (onNat (if dec then decBlock ks else encBlock ks)) 4 t v.toNat)
def asciiDomain : List Byte := [0x41, 0x39, 0x36, 0x30, 0x20, 0x6B, 0x65, 0x79, 0x20, 0x64, 0x6F, 0x6D, 0x61, 0x69, 0x6E]
/-- R385: the keys of a domain in the hands of an owner: the data key in bytes 0 to 31, the tweak key in bytes 32 to 63. -/
def domainKeys (t : Nat × Nat) : BitVec 512 :=
  shake512 (asciiDomain ++ leBytes 64 Config.deviceSeed.toNat ++ leBytes 32 (Config.memberSecret t.2).toNat ++ leBytes 1 t.1)
/-- A line's ciphertext, and what a ciphertext reads as (R385, R386). -/
def cipherOf (line : Nat) (t : Nat × Nat) (v : BitVec 512) : BitVec 512 := xtsLine false (domainKeys t) line v
def plainOf (line : Nat) (t : Nat × Nat) (v : BitVec 512) : BitVec 512 := xtsLine true (domainKeys t) line v

end Sys2Proof.Machine
end

