-- ==== Sys2Proof/Machine/Mem.lean ====
section
/-! DEFINITION. Physical memory under key domains, the page-table walk, permissions and the firewall (spec/20 R372 to R386), homes and skews (spec/06 R126, R128). -/
namespace Sys2Proof.Machine

/-! ## Physical memory under a key domain (R385, R386) -/

/-- The domain's key version; a re-key raises it. -/
def domVer (s : State) (d : Nat) : Nat := s.io.keyVer.getD d 0
/-- R384: who owns a domain: 0 for firmware or nobody, else 1 + the partition. -/
def ownerOf (s : State) (d : Nat) : Nat := ((s.parts.find? fun e => e.2.domains.contains d).map fun e => e.1 + 1).getD 0
/-- R385: what a domain's keys come from, besides the device seed: its index, and the number of its member secret, which says the owner
and the re-keys so far. -/
def tagOf (s : State) (d : Nat) : Nat × Nat := (d, 64 * domVer s d + ownerOf s d)
/-- Whether a line reads as written through domain d: it was written through d's present keys, or never. -/
def sameKey (s : State) (d line : Nat) : Bool :=
  match s.io.lineDom.get? line with
  | none => true
  | some t => t == tagOf s d
/-- The 64 bytes of a line as domain d reads them. -/
def lineVal (s : State) (d line : Nat) : BitVec 512 :=
  let v := BitVec.ofNat 512 (s.mem.readN (64 * line) 64)
  if sameKey s d line then v
  else plainOf line (tagOf s d) (cipherOf line (s.io.lineDom.getD line (0, 0)) v)
/-- n bytes (inside one line) as domain d reads them. -/
def readPhys (s : State) (d a n : Nat) : Nat :=
  if sameKey s d (a / 64) then s.mem.readN a n
  else (lineVal s d (a / 64)).toNat / 256 ^ (a % 64) % 256 ^ n
/-- Writes n bytes inside one line; a line last written under other keys is first re-written as d reads it. -/
def writePhys (s : State) (d a n v : Nat) : State :=
  let line := a / 64
  let m := if sameKey s d line then s.mem else s.mem.writeN (64 * line) 64 (lineVal s d line).toNat
  { s with mem := m.writeN a n v, io := { s.io with lineDom := s.io.lineDom.put line (tagOf s d) } }
def readPhysBytes (s : State) (d a : Nat) : Nat → List Byte
  | 0 => []
  | n + 1 => BitVec.ofNat 8 (readPhys s d a 1) :: readPhysBytes s d (a + 1) n
def writePhysBytes (s : State) (d a : Nat) : List Byte → State
  | [] => s
  | b :: bs => writePhysBytes (writePhys s d a 1 b.toNat) d (a + 1) bs

/-! ## Page tables (R372 to R375) -/

def pteV (e : Word) : Bool := e.getLsbD 0
def pteLeaf (e : Word) : Bool := e.getLsbD 1
def pteHome (e : Word) : Nat := (e.extractLsb' 2 2).toNat
def pteLease (e : Word) : Nat := (e.extractLsb' 4 2).toNat
def pteRD (e : Word) : Bool := e.getLsbD 6
def pteW (e : Word) : Bool := e.getLsbD 7
def pteA (e : Word) : Bool := e.getLsbD 8
def pteX (e : Word) : Bool := e.getLsbD 9
def pteS (e : Word) : Bool := e.getLsbD 10
def ptePubw (e : Word) : Bool := e.getLsbD 11
def ptePA (e : Word) : Nat := (e.extractLsb' 12 36).toNat * 4096
def pteDom (e : Word) : Nat := (e.extractLsb' 48 6).toNat
def ptePin (e : Word) : Nat := (e.extractLsb' 54 9).toNat

/-- R374: six compute dies with 96 GB each; the IO die's range holds firmware structures. -/
def validPA (pa : Nat) : Bool :=
  let die := pa / 2 ^ 37
  (decide (die < 6) && decide (pa % 2 ^ 37 < 96000000000)) || die == 6

inductive WalkR where
  | leaf (e : Word) (level : Nat)
  | bad
  | poisoned
  deriving DecidableEq, Repr

/-- Levels in walk order: level number, shift of its index, bits of its index (R372). -/
def levels : List (Nat × Nat × Nat) := [(3, 39, 17), (2, 30, 9), (1, 21, 9), (0, 12, 9)]

/-- R375: one entry's own form. -/
def pointerOk (e : Word) : Bool :=
  pteV e && !pteLeaf e && e &&& 0xFFFF000000000FFE#64 == 0
def leafOk (e : Word) (level : Nat) : Bool :=
  pteV e && pteLeaf e && !e.getLsbD 63 && level != 3 &&
  (level != 1 || ptePA e % 2 ^ 21 == 0) && (level != 2 || ptePA e % 2 ^ 30 == 0) && validPA (ptePA e) &&
  (pteHome e != 1 || ptePin e ≤ 383) && (pteHome e != 2 || ptePin e ≤ 47)

/-- R381: the traffic classes a die's link passes. -/
def linkAllows (p : Part) (die link : Nat) : BitVec 5 :=
  match p.fwallow.find? fun e => e.1 == die && e.2.1 == link with
  | some e => e.2.2
  | none =>
    if link = 6 then 0x1F else if link = 7 ∨ link = die then 0
    else if p.dies.contains die && p.dies.contains link then 0x0F else 0
/-- R382: whether a die's access to a physical address passes the firewall in traffic class bit b. -/
def passes (p : Part) (die pa b : Nat) : Bool :=
  let dst := pa / 2 ^ 37
  dst == die || (linkAllows p die dst).getLsbD b
/-- The IO die, which walks for the host and the front end. -/
def ioDie : Nat := 6
/-- R375, R382: whether a die can read a table entry. The IO die reaches a compute die over that die's link 6, as front-end traffic
(log 19). -/
def entryReach (p : Part) (die a : Nat) : Bool :=
  if die = ioDie then a / 2 ^ 37 == ioDie || (linkAllows p (a / 2 ^ 37) 6).getLsbD 4 else passes p die a 0

/-- R372, R375: the walk of a die. An entry that is invalid, ill-formed, or whose read a link refuses ends it. -/
def walkFrom (s : State) (p : Part) (die va : Nat) : Nat → List (Nat × Nat × Nat) → WalkR
  | _, [] => .bad
  | base, (level, sh, bits) :: rest =>
    let a := base + 8 * (va / 2 ^ sh % 2 ^ bits)
    if !validPA a || !entryReach p die a then .bad
    else if s.memPoison.contains (a / 64) then .poisoned
    else
      let e : Word := BitVec.ofNat 64 (readPhys s p.keydom a 8)
      if leafOk e level then .leaf e level
      else if level != 0 && pointerOk e then walkFrom s p die va (ptePA e) rest
      else .bad

/-- R378: the root in force. -/
def root (p : Part) : Nat := p.oldRoot.getD p.ptbase
/-- The walk of a compute die, and the IO die's. -/
def walkOf (s : State) (p : Part) (die va : Nat) : WalkR := walkFrom s p die va (root p) levels
def walk (s : State) (p : Part) (va : Nat) : WalkR := walkOf s p ioDie va

def levelSize (level : Nat) : Nat := if level = 2 then 2 ^ 30 else if level = 1 then 2 ^ 21 else 4096

/-- What an access wants (R375). -/
inductive Want where
  | load | store | atomic | fetch
  deriving DecidableEq, Repr

inductive Tr where
  | ok (pa : Nat) (pte : Word)
  | fault (code : Nat)
  deriving DecidableEq, Repr

/-- The cached translation of an address, if a cache holds one (R377). -/
def cached (p : Part) (va : Nat) : Option (Word × Nat) :=
  (p.tlb.find? fun e => e.asid == p.asid && decide (e.va ≤ va) && decide (va < e.va + e.size)).map fun e => (e.pte, e.size)

/-- R378: where a cached translation and the tables differ, an access may use either: a free choice (log 6). -/
def lookup (s : State) (p : Part) (die va : Nat) : WalkR :=
  let fresh := walkOf s p die va
  match cached p va with
  | none => fresh
  | some (e, sz) =>
    let old := WalkR.leaf e (if sz = 2 ^ 30 then 2 else if sz = 2 ^ 21 then 1 else 0)
    if old = fresh then fresh else if (Config.freeValue s.freeCtr).getLsbD 0 then old else fresh

def permits (e : Word) : Want → Bool
  | .load => pteRD e
  | .store => pteW e
  | .atomic => pteA e
  | .fetch => pteX e

/-- R375: translation, then permission, then the firewall. The frame map covers the partition's own HBM (R391). -/
def translate (s : State) (w : Warp) (k : Want) (va : Nat) : Tr :=
  let p := s.part w.id.part
  match lookup s p w.die va with
  | .bad => .fault 0x04
  | .poisoned => .fault 0x22
  | .leaf e level =>
    let pa := ptePA e + va % levelSize level
    let pinOk := match pteHome e with
      | 1 => p.dies.contains (ptePin e / 64)
      | 2 => p.dies.contains (ptePin e / 8)
      | _ => true
    let room := pteHome e != 1 ||
      (let c := s.core (ptePin e)
       c.pinned.contains (pa / 4096) || decide ((c.block.elim 0 fun b => b.spadpg) + c.pinned.length < 64))
    if !permits e k || (pteS e && !w.smode) || !p.domains.contains (pteDom e) || !pinOk ||
        (p.dies.contains (pa / 2 ^ 37) && s.io.frames.get? (pa / 2 ^ 21) != some (w.id.part, w.id.vdev)) then .fault 0x05
    else if !room then .fault 0x04
    else if !passes p w.die pa 0 then .fault 0x30
    else .ok pa e

/-- R377: the caches hold the translation an access used. -/
def fillTlb (s : State) (w : Warp) (va : Nat) : State :=
  let p := s.part w.id.part
  match cached p va, walkOf s p w.die va with
  | none, .leaf e level =>
    let sz := levelSize level
    s.setPart w.id.part { p with tlb := p.tlb ++ [⟨0, p.asid, va / sz * sz, sz, e⟩] }
  | _, _ => s
/-- R376: a scratchpad-pinned page occupies a page of the core it names. -/
def takePin (s : State) (pte : Word) (pa : Nat) : State :=
  if pteHome pte = 1 then
    s.modCore (ptePin pte) fun c => if c.pinned.contains (pa / 4096) then c else { c with pinned := c.pinned ++ [pa / 4096] }
  else s
/-- R376: the page a warp's access at an address uses. -/
def pinAt (s : State) (w : Warp) (va : Nat) : State :=
  match lookup s (s.part w.id.part) w.die va with
  | .leaf e level => takePin s e (ptePA e + va % levelSize level)
  | _ => s
/-- The pages of n bytes. -/
def pinRange (s : State) (w : Warp) (va n : Nat) : State :=
  (List.range ((va % 4096 + n + 4095) / 4096)).foldl (fun s i => pinAt s w ((va / 4096 + i) * 4096)) s
/-- R376: accesses judged in their order, each with the pages that the ones before it have taken. -/
def judge (s : State) (w : Warp) (f : State → α → Except Nat Acc) : List α → State × List (Except Nat Acc)
  | [] => (s, [])
  | x :: l =>
    let r := f s x
    let x := judge (match r with
      | .ok a => pinAt s w a.va
      | .error _ => s) w f l
    (x.1, r :: x.2)
/-- The code an access raises is c. -/
def raises (c : Nat) : Except Nat Acc → Bool
  | .error e => e == c
  | .ok _ => false

/-- R126: the lease a copy of the page's lines gets, in ns; 0 for none. -/
def leaseNs (e : Word) : Nat :=
  if pteHome e = 3 then 0
  else match pteLease e with
    | 1 => 64
    | 2 => 512
    | 3 => 4096
    | _ => 0
/-- R126: the cluster whose slice or scratchpad is the line's home; 48 for the HBM controller of an uncached page. -/
def homeOf (e : Word) (pa : Nat) : Nat :=
  match pteHome e with
  | 1 => ptePin e / 8
  | 2 => ptePin e
  | 3 => 48
  | _ => pa / 2 ^ 37 * 8 + Config.homeHash (pa / 64) % 8
/-- R128: the skew between a cluster and a home. -/
def skew (cl home : Nat) : Nat := if cl = home then 4 else 16
/-- R131: the bound for domain visibility. -/
def domainSkew (onePkg : Bool) : Nat := if onePkg then 16 else 128

/-! ## Memory through a warp's translation, at once (handler frames, tables, fetch) -/

/-- Reads n bytes inside an aligned unit. -/
def readVirt (s : State) (w : Warp) (k : Want) (va n : Nat) : Except Nat Nat :=
  if va ≥ 2 ^ 56 then .error 0x04
  else match translate s w k va with
    | .fault c => .error c
    | .ok pa e => if s.memPoison.contains (pa / 64) then .error 0x22 else .ok (readPhys s (pteDom e) pa n)

/-- Reads n consecutive 8-byte words. -/
def readWords (s : State) (w : Warp) (k : Want) (va : Nat) : Nat → Except Nat (List Word)
  | 0 => .ok []
  | n + 1 =>
    match readVirt s w k va 8 with
    | .error c => .error c
    | .ok v =>
      match readWords s w k (va + 8) n with
      | .error c => .error c
      | .ok l => .ok (BitVec.ofNat 64 v :: l)

/-- R172: what instruction fetch sees: in U mode the launch's code image does not change while the launch runs. -/
def fetchView (s : State) (w : Warp) : State :=
  if w.smode then s
  else match (s.launch w.id.lid).image with
    | some m => { s with mem := m.1, io := { s.io with lineDom := m.2 } }
    | none => s
/-- R172, R4: the four parcels at a code address, the first in bits 63:48. -/
def fetchParcel (s : State) (w : Warp) (a : Nat) : Except Nat Nat :=
  match readVirt s w .fetch (a / 2 * 2) 2 with
  | .error c => .error c
  | .ok v => match translate s w .fetch (a / 2 * 2) with
    | .ok pa e => .ok (readPhys (fetchView s w) (pteDom e) pa 2)
    | .fault _ => .ok v
def fetch4 (s : State) (w : Warp) (a : Nat) : Except Nat Word :=
  match fetchParcel s w a, fetchParcel s w (a + 2), fetchParcel s w (a + 4), fetchParcel s w (a + 6) with
  | .ok p0, .ok p1, .ok p2, .ok p3 =>
    .ok (BitVec.ofNat 16 p0 ++ BitVec.ofNat 16 p1 ++ BitVec.ofNat 16 p2 ++ BitVec.ofNat 16 p3)
  | .error c, _, _, _ => .error c
  | _, .error c, _, _ => .error c
  | _, _, .error c, _ => .error c
  | _, _, _, .error c => .error c

/-! ## Block headers (R176, R177) -/

namespace Hdr
def magic (w : Word) : Bool := w.extractLsb' 60 4 == 0xA
def len (w : Word) : Nat := (w.extractLsb' 48 12).toNat
def liveV (w : Word) : Nat := let n := (w.extractLsb' 40 8).toNat; if n = 255 then 256 else n
def liveS (w : Word) : Nat := (w.extractLsb' 33 7).toNat
def reconv (w : Word) : Int := (w.extractLsb' 17 16).toInt
def mono (w : Word) : Bool := w.getLsbD 12
def dec (w : Word) : Bool := w.getLsbD 11
def safe (w : Word) : Bool := w.getLsbD 10
def dict (w : Word) : Bool := w.getLsbD 9
def entry (w : Word) : Bool := w.getLsbD 8
def cls (w : Word) : BitVec 8 := w.extractLsb' 0 8
/-- R177. -/
def bad (w : Word) : Bool := len w == 0 || (dec w && !mono w) || (cls w != 0 && !entry w)
/-- The address after the body. -/
def endAddr (h : Hdr) : Nat := h.addr + 8 + 2 * len h.word
end Hdr

/-- The header at an address: none if no header stands there (R175), or the fault of its fetch. An address at or above 2^56 holds none: a
transfer or a fall-through to it raises 0x02, as R211 says of RET (log 49). -/
def headerAt (s : State) (w : Warp) (a : Nat) : Except Nat (Option Word) :=
  if a ≥ 2 ^ 56 then .ok none
  else match fetch4 s w (a / 2 * 2) with
    | .error c => .error c
    | .ok h => .ok (if Hdr.magic h then some h else none)

end Sys2Proof.Machine
end

