-- ==== Sys2Proof/Machine/Trace.lean ====
section
/-! DEFINITION. The rings of the Perch session: trace records and the ring header (spec/21 R403, R406, R407). -/
namespace Sys2Proof.Machine

def traceOn (s : State) (part kind : Nat) : Bool :=
  s.io.perch.trCtl.getLsbD 0 && s.io.perch.trCtl.getLsbD kind && s.io.perch.part == part
/-- Whether a byte range lies in frames of a partition. -/
def inFrames (s : State) (pid a n : Nat) : Bool :=
  (List.range ((a + n - 1) / 2 ^ 21 + 1 - a / 2 ^ 21)).all fun i => (s.io.frames.get? (a / 2 ^ 21 + i)).any fun f => f.1 == pid
/-- A ring of the session still lies in its partition's frames; outside them nothing is reached (R401). -/
def ringThere (s : State) (base log : Nat) : Bool := inFrames s s.io.perch.part base (2 ^ log)
/-- A record in a ring of the session's partition; a full ring counts it in LOST. -/
def ringPut (s : State) (base log rsize : Nat) (rec : List Byte) : State :=
  let d := (s.part s.io.perch.part).keydom
  let n := (2 ^ log - 64) / rsize
  let w := readPhys s d base 8
  let r := min (readPhys s d (base + 8) 8) w
  if !ringThere s base log then s
  else if w - r = n ∨ n = 0 then writePhys s d (base + 16) 8 (readPhys s d (base + 16) 8 + 1)
  else
    let s := writePhysBytes s d (base + 64 + rsize * (w % n)) rec
    writePhys s d base 8 (w + 1)
def ringFull (s : State) (base log rsize : Nat) : Bool :=
  let d := (s.part s.io.perch.part).keydom
  let n := (2 ^ log - 64) / rsize
  let w := readPhys s d base 8
  ringThere s base log && w - min (readPhys s d (base + 8) 8) w == n
/-- The IO die accepts a trace record: it takes its SEQ (R407) and goes to the ring. -/
def acceptTrace (s : State) (body : List Byte) : State :=
  let seq := s.io.seq + 1
  let s := s.modIo fun io => { io with seq := seq }
  ringPut s s.io.perch.trBase s.io.perch.trSize 64 (leBytes 8 seq ++ body)
/-- R407: in WAIT mode a record that finds the trace ring full waits for space. -/
def traceBlocked (s : State) : Bool :=
  s.io.perch.trCtl.getLsbD 16 && ringFull s s.io.perch.trBase s.io.perch.trSize 64
/-- Records that waited go to the ring in their order as far as it has space. -/
def flushTrace : List (List Byte) → State → State
  | [], s => s
  | b :: bs, s =>
    if traceBlocked s then s
    else flushTrace bs (acceptTrace (s.modIo fun io => { io with perch := { io.perch with trHeld := bs } }) b)
/-- R406: one record for an event of an enabled kind of a warp. -/
def trace (s : State) (w : Warp) (kind a b c : Nat) : State :=
  if traceOn s w.id.part kind then
    let body := leBytes 8 s.now ++ leBytes 4 w.id.gang ++ leBytes 1 w.id.block ++ leBytes 1 w.idx ++ leBytes 1 w.pid
        ++ leBytes 1 kind ++ leBytes 8 w.p.pc ++ leBytes 8 w.p.exec.toNat ++ leBytes 8 a ++ leBytes 8 b ++ leBytes 8 c
    if s.io.perch.trHeld.isEmpty && !traceBlocked s then acceptTrace s body
    else s.modIo fun io => { io with perch := { io.perch with trHeld := io.perch.trHeld ++ [body] } }
  else s

end Sys2Proof.Machine
end

