-- ==== Sys2Proof/Machine/Tile.lean ====
section
/-! DEFINITION. The tile table of a cluster: states, parking and serving, draining and VOID (spec/04 R79 to R97). -/
namespace Sys2Proof.Machine

/-- The next instruction of a path: past the body it is a header position (R173). -/
def Path.step (p : Path) (ilen : Nat) : Path :=
  { p with pc := p.pc + ilen, atHdr := decide (Hdr.endAddr p.hdr ≤ p.pc + ilen) }

/-- The warp has issued its instruction: the program counter moves on, waits end, the window of R37 shrinks. -/
def Warp.advance (w : Warp) (ilen : Nat) : Warp :=
  { w with p := w.p.step ilen, win := w.win - 1, wait := .none, stalled := false, pendSync := none }

/-- The names a command reads. -/
def Cmd.srcs : Cmd → List Nat
  | .loadb n _ _ _ => [n]
  | .run n cnt _ _ => (List.range cnt).map fun i => n + i
  | _ => []

/-- The accumulator rows, in sixteens, that a command reads or writes. -/
def Cmd.rows : Cmd → Option Nat
  | .run _ _ r _ | .drain _ r _ _ _ | .zero r | .conv r _ _ => some r
  | _ => none
/-- The lease whose engine a command of lease l works on: a convolution works on the array its lease was bound to at its issue (R170). -/
def QCmd.array (q : QCmd) (l : Nat) : Nat :=
  match q.c with
  | .conv _ _ _ => (q.regs.getD 4 0).toNat
  | _ => l
/-- Of two commands on one array, a comes first: in the order of arrival, but where the rows are the same in that of issue (R154, R117). -/
def QCmd.before (a b : QCmd) : Bool := decide (a.seq < b.seq) || (a.seq == b.seq && decide (a.iss < b.iss))
/-- They read or write the same accumulator rows, and a issued first. -/
def QCmd.rowsFirst (a b : QCmd) : Bool := a.c.rows.isSome && a.c.rows == b.c.rows && decide (a.iss < b.iss)
/-- The commands queued for an array. -/
def onArray (c : Cluster) (l : Nat) : List QCmd := c.leases.flatMap fun e => e.2.queue.filter fun q => q.array e.1 == l
/-- A command takes its place in its lease's queue. -/
def insertCmd (q : QCmd) : List QCmd → List QCmd
  | [] => [q]
  | y :: l => if q.before y then q :: y :: l else y :: insertCmd q l

namespace State

def tile (s : State) (cl n : Nat) : Tile := (s.cluster cl).tiles.getD n {}
def setTile (s : State) (cl n : Nat) (t : Tile) : State :=
  s.modCluster cl fun c => { c with tiles := c.tiles.put n t }
def modTile (s : State) (cl n : Nat) (f : Tile → Tile) : State := s.setTile cl n (f (s.tile cl n))
/-- The gang whose window holds a name (R81). -/
def gangOfName (s : State) (cl n : Nat) : Option (Nat × Gang) :=
  s.gangs.find? fun e => e.2.cluster == cl && !e.2.gone && !e.2.away && decide (e.2.tnbase ≤ n) && decide (n < e.2.tnbase + e.2.tncount)

/-- R84: a name becomes FILLING for a warp, all rows zero; what is recorded at it stays recorded (R88). -/
def takeName (s : State) (cl n : Nat) (w : Warp) (k : TKind) : State :=
  let s := s.setTile cl n { st := .filling, kind := k, defw := w.idx, defb := w.id.block, used := true, defc := (s.tile cl n).defc + 1,
                             parked := (s.tile cl n).parked }
  match s.gangOfName cl n with
  | some (g, x) => { s with gangs := s.gangs.put g { x with freed := x.freed.erase n } }
  | none => s

/-- R92: the head of the free order: the recycled queue, else the lowest name never used. -/
def freeHead (s : State) (cl : Nat) (g : Gang) : Option Nat :=
  match g.freed with
  | n :: _ => some n
  | [] => ((List.range g.tncount).map (· + g.tnbase)).find? fun n => !(s.tile cl n).used && (s.tile cl n).st == .free

/-- A happening that follows at once. -/
def post (s : State) (row : Instr) (a : Arg) : State := { s with due := s.due ++ [⟨row, a⟩] }

/-- A read of the name has completed (R84). -/
def tileReadDone (s : State) (cl n : Nat) : State :=
  let s := s.modTile cl n fun t => { t with reads := t.reads - 1 }
  let t := s.tile cl n
  if t.st == .draining && t.reads == 0 then s.post .tileDrainComplete { cluster := cl, key := n } else s
/-- A command that reaches an engine which has stopped: its reads of names end, and it ends unwritten at once (R268). -/
def loseCmd (s : State) (cl l : Nat) (c : QCmd) : State :=
  ((c.c.srcs.foldl (fun s n => s.tileReadDone cl n) s).modCluster cl fun k => { k with lost := k.lost ++ [c] }).post .engineStop
    { cluster := cl, key := l }
/-- A command joins its lease's queue; where the engine has stopped, it ends unwritten at once (R268). -/
def join (s : State) (cl l : Nat) (c : QCmd) (into : List QCmd → List QCmd) : State :=
  match (s.cluster cl).leases.get? l with
  | some x =>
    if x.st == .evicted && !x.stopping then s.loseCmd cl l c
    else s.modCluster cl fun k => { k with leases := k.leases.put l { x with queue := into x.queue } }
  | none => s.loseCmd cl l c
/-- A command that reaches its engine in the cycle it issues stands last (R154). -/
def enqueue (s : State) (cl l : Nat) (c : QCmd) : State := s.join cl l c fun q => q ++ [c]
/-- A command that was parked reaches its engine later than it issued: it stands last too, but before the commands into the same rows
that issued after it (R117). -/
def arriveCmd (s : State) (cl l : Nat) (c : QCmd) : State :=
  let later := (onArray (s.cluster cl) (c.array l)).filter c.rowsFirst
  let c := { c with seq := (later.map QCmd.seq).foldl min s.arrCtr }
  { s with arrCtr := s.arrCtr + 1 }.join cl l c (insertCmd c)

end State

/-- Where a parked operation is recorded: its warp's key and its path (R88). -/
def recId (k i : Nat) : Nat := 8 * k + i
/-- The record of a path of the warp. -/
def Warp.recordOf (w : Warp) (i : Nat) : Option Park := if i = w.pid then w.park else (w.parks.get? i).map Prod.fst
/-- Replaces the record of a path, or takes it away. -/
def Warp.setRecord (w : Warp) (i : Nat) (r : Option Park) : Warp :=
  match decide (i = w.pid), r with
  | true, some pk => { w with park := some pk }
  | true, none => { w with park := none, parkT := 0 }
  | false, some pk => { w with parks := w.parks.modify i fun e => (pk, e.2) }
  | false, none => { w with parks := w.parks.del i }
/-- Every record of the warp. -/
def Warp.records (w : Warp) : List Park := w.park.toList ++ w.parks.vals.map Prod.fst
/-- The path of a record moves past its instruction. -/
def Warp.unparked (w : Warp) (i ilen : Nat) : Warp :=
  if i = w.pid then
    let w := { w.advance ilen with idle := 0 }
    { w with p := { w.p with stage := none } }
  else { w with paths := w.paths.modify i fun p => { p.step ilen with stage := none } }

/-- The warp without the record of path i, which has been served or has ended: the operation has issued. -/
def Warp.leavePark (w : Warp) (i : Nat) (pk : Park) : Warp :=
  (pk.vfrees.foldl Warp.freeV (pk.frees.foldl Warp.freeS (w.setRecord i none))).unparked i pk.ilen

namespace State

/-- What the end of a park shows: its event (R406), and an instruction issued. -/
def noteUnpark (s : State) (w : Warp) (n : Nat) : State := (trace s w 5 n 1 0).countOn w.id.vdev w.cluster 0
/-- Serves the parked operation r at a name (R88): it has issued, with or without a baton. A command whose further sources are awaited
has its read of this one taken, and stays recorded at the others. -/
def servePark (s : State) (r n : Nat) : State :=
  let k := r / 8
  let i := r % 8
  match s.warp? k with
  | none => s
  | some w =>
    match w.recordOf i with
    | none => s
    | some pk =>
      let need := pk.need.filter fun x => x != n
      if !need.isEmpty then
        (s.setWarp k (w.setRecord i (some { pk with need := need, got := pk.got ++ [n], name := need.headD n }))).modTile w.cluster n
          fun t => { t with reads := t.reads + 1 }
      else
      let w1 := w.leavePark i pk
      let s := s.noteUnpark w pk.name
      match pk.k with
      | .read =>
        let w2 := match w1.op? pk.op with
          | some o => (match o.dst with
            | .vec d _ => if o.port.1 then w1 else w1.pendV d o.lanes o.id o.pc
            | _ => w1)
          | none => w1
        (s.setWarp k w2).modTile w.cluster pk.name fun t => { t with reads := t.reads + 1 }
      | .cmd l c =>
        ((s.setWarp k w1).modTile w.cluster n fun t => { t with reads := t.reads + 1 }).arriveCmd w.cluster l c
      | .define kd => charge ((s.setWarp k w1).takeName w.cluster pk.name w kd) w.id.vdev w.die 0 0 1
      | .new kd h =>
        charge ((s.setWarp k (w1.wrS h (BitVec.ofNat 64 (pk.name - w.id.tnbase)))).takeName w.cluster pk.name w kd) w.id.vdev w.die 0 0 1

/-- A record is that of a TDEF; the others are reads, and commands that read. -/
def isDefine (s : State) (r : Nat) : Bool :=
  match ((s.warp? (r / 8)).bind fun w => w.recordOf (r % 8)).map Park.k with
  | some (.define _) => true
  | _ => false

/-- The name becomes READY and its recorded reads are served (R87, R88). -/
def makeReady (s : State) (cl n : Nat) (void : Bool) : State :=
  let t := s.tile cl n
  let rs := t.parked.filter fun r => !s.isDefine r
  let s := s.setTile cl n { t with
    st := .ready, sealP := false, void := void, orphan := false,
    data := if void then [] else t.data, poison := if void then [] else t.poison,
    parked := t.parked.filter fun r => s.isDefine r }
  rs.foldl (fun s r => s.servePark r n) s

/-- Beyond every name of a cluster: where a TNEW is recorded. -/
def noName : Nat := 4096
/-- The first TNEW recorded in the gang takes the head of the free order (R91). -/
def serveNew (s : State) (cl : Nat) (gk : Nat) : State :=
  match s.gangs.get? gk with
  | none => s
  | some g =>
    match g.newWait, s.freeHead cl g with
    | r :: rest, some n =>
      let s := { s with gangs := s.gangs.put gk { g with newWait := rest } }
      -- the record of a TNEW stands at no name until it is given one
      (s.modWarp (r / 8) fun w => match w.recordOf (r % 8) with
        | some pk => w.setRecord (r % 8) (some { pk with name := n })
        | none => w).servePark r n
    | _, _ => s
/-- A gang of the cluster has a recorded TNEW and a free name. -/
def newDue (s : State) (cl : Nat) : Option Nat :=
  (s.gangs.find? fun e => e.2.cluster == cl && !e.2.away && !e.2.gone && !e.2.newWait.isEmpty && (s.freeHead cl e.2).isSome).map Prod.fst

/-- The cores of a cluster that run a block. They share a clock (R363). -/
def runningCores (s : State) (cl : Nat) : List Core :=
  ((List.range 8).map fun i => s.core (8 * cl + i)).filter fun c => c.block.isSome && !c.away
/-- When the present cycle of a cluster began, in 1/84 ns: its cores have not all ended it. -/
def cycleStart (s : State) (cl : Nat) : Nat := 168 * s.tick + (s.runningCores cl).foldl (fun b c => min b c.phase) (2 ^ 32)
/-- Where the local time of a core that begins to run stands: with its cluster's cores, at their next cycle where one has had it. -/
def alignedPhase (s : State) (cl : Nat) : Nat := ((List.range 8).map fun i => (s.core (8 * cl + i)).phase).foldl max 0
/-- Between the cycles of a cluster: no slot has had its turn, and no core is ahead of another. -/
def betweenCycles (s : State) (cl : Nat) : Bool :=
  match s.runningCores cl with
  | [] => true
  | c :: l => c.slot == 0 && l.all fun x => x.slot == 0 && x.phase == c.phase
/-- R92: a freed name joins the recycled queue; those freed in one cycle stand in ascending order. -/
def recycle (s : State) (cl n : Nat) (g : Gang) : Gang :=
  let old := if g.freshAt = s.cycleStart cl then g.fresh.filter g.freed.contains else []
  let fresh := old.filter (fun m => decide (m < n)) ++ n :: old.filter fun m => decide (n < m)
  { g with freed := g.freed.filter (fun m => !old.contains m) ++ fresh, fresh := fresh, freshAt := s.cycleStart cl }
/-- The name becomes FREE: the first recorded TDEF takes it; else it joins the free order. Recorded TNEWs are served when every name
that the cycle frees has joined (R92; TILE_DRAIN_COMPLETE). -/
def makeFree (s : State) (cl n : Nat) : State :=
  let t := s.tile cl n
  match t.parked with
  | r :: rest =>
    ((s.setTile cl n { used := true, defc := t.defc }).servePark r n).modTile cl n fun x => { x with parked := rest }
  | [] =>
    let s := s.setTile cl n { used := true, defc := t.defc }
    match s.gangOfName cl n with
    | some (gk, g) => { s with gangs := s.gangs.put gk (s.recycle cl n g) }
    | none => s

/-- A write to the name has completed (R87, R90). -/
def tileWriteDone (s : State) (cl n : Nat) : State :=
  let s := s.modTile cl n fun t => { t with writes := t.writes - 1 }
  let t := s.tile cl n
  if t.st == .filling && t.writes == 0 then
    (if t.orphan then s.post .definerVoid { cluster := cl, key := n }
     else if t.sealP then s.makeReady cl n false else s)
  else s

/-- R141, R93: a write of definition d of the name ends unwritten: the name becomes READY with VOID. -/
def writeLost (s : State) (cl n d : Nat) : State :=
  let t := s.tile cl n
  if t.st == .filling && t.defc == d then (s.setTile cl n { t with writes := t.writes - 1 }).makeReady cl n true else s

/-- R88: a record is withdrawn, and its counter increment undone. -/
def withdrawRec (s : State) (k i : Nat) (pk : Park) : State :=
  match s.warp? k with
  | none => s
  | some w =>
    let w := { w with sds := pk.port0.foldl (fun (l : List SDesc) (e : Nat × BitVec 32) => putAt {} l e.1 { l.getD e.1 {} with pos := e.2 }) w.sds,
                      exh := w.exh &&& ~~~pk.exh0 }
    let s := s.setWarp k { w with ops := w.ops.filter fun o => o.id != pk.op && o.link != some pk.op }
    match pk.k with
    | .new _ _ => s.modGang w.id.lid w.id.gang fun g => { g with newWait := g.newWait.erase (recId k i) }
    | _ =>
      let s := (pk.name :: pk.need).eraseDups.foldl
        (fun s n => s.modTile w.cluster n fun t => { t with parked := t.parked.erase (recId k i) }) s
      pk.got.foldl (fun s n => s.tileReadDone w.cluster n) s
/-- The record of the warp's current path is withdrawn. -/
def withdrawCur (s : State) (k : Nat) : State :=
  match s.warp? k with
  | none => s
  | some w =>
    match w.park with
    | none => s
    | some pk => (s.setWarp k { w with park := none, parkT := 0, wait := .none }).withdrawRec k w.pid pk
/-- The records of all its paths are. -/
def withdraw (s : State) (k : Nat) : State :=
  match s.warp? k with
  | none => s
  | some w =>
    if w.parks.isEmpty then s.withdrawCur k
    else w.parks.foldl (fun s e => s.withdrawRec k e.1 e.2.1) ((s.setWarp k { w with parks := [] }).withdrawCur k)

/-- R90: names an ended warp holds FILLING; with no write outstanding they become VOID. -/
def orphanNames (s : State) (w : Warp) : State :=
  ((s.cluster w.cluster).tiles.filter fun e =>
      e.2.st == .filling && e.2.defw == w.idx && e.2.defb == w.id.block &&
      decide (w.id.tnbase ≤ e.1) && decide (e.1 < w.id.tnbase + w.id.tncount)).foldl
    (fun s e =>
      let s := s.modTile w.cluster e.1 fun t => { t with orphan := true }
      if e.2.writes == 0 then s.post .definerVoid { cluster := w.cluster, key := e.1 } else s) s

end State

/-- R83: the kind and plane fields of the status word. -/
def kindWord : TKind → Nat
  | .w32 => 0 | .w16 => 1 | .w8 => 2 | .pi _ => 3
def kindK : TKind → Nat
  | .pi k => k.toNat
  | _ => 0

/-- R83: the status word of a name; PLACE of a value is a free value (log 12). -/
def tileStatus (s : State) (cl n : Nat) : Word :=
  let t := s.tile cl n
  let place : Nat := if t.st == .free || t.void then 3
    else if t.st == .filling then (Config.freeValue s.freeCtr).toNat % 2
    else (Config.freeValue s.freeCtr).toNat % 3
  let st : Nat := match t.st with
    | .free => 0 | .filling => 1 | .ready => 2 | .draining => 3
  let d := if t.st == .free then 0 else 1
  BitVec.ofNat 64 (st + 4 * t.void.toNat + 8 * t.sealP.toNat + 16 * (d * kindWord t.kind) + 64 * (d * kindK t.kind)
    + 1024 * (d * t.defw) + 32768 * (d * t.defb) + 2 ^ 18 * place + 2 ^ 20 * n)

/-- R82: the absolute name of a tile operand, if it lies in the window. -/
def absName (w : Warp) (t : TileRef) : Option Nat :=
  let n := match t with
    | .name n => n.toNat
    | .reg r => (w.rdS r).toNat
  if n < w.id.tncount then some (w.id.tnbase + n) else none

/-- The scalar a tile operand reads, with the LU bit of its position. -/
def tileSrc (t : TileRef) (lu : Bool) : List (SIdx × Bool) :=
  match t with
  | .name _ => []
  | .reg r => [(r, lu)]

/-- R79, R80: planes below 8 − k of a plane-integer tile read as zero. -/
def tileByte (t : Tile) (b : Nat) : Byte :=
  if t.void then 0
  else match t.kind with
    | .pi k => if b / 64 % 8 < k.toNat then t.data.get b else 0
    | _ => t.data.get b
/-- One 64-byte row (R79). -/
def tileRow (t : Tile) (r : Nat) : List Byte := (List.range 64).map fun i => tileByte t (64 * r + i)

end Sys2Proof.Machine
end

