-- ==== Sys2Proof/Machine/Matrix.lean ====
section
/-! DEFINITION. The arithmetic of the matrix arrays (spec/05 R104, R115 to R119, spec/07 R166, spec/12 R269 to R273). -/
namespace Sys2Proof.Machine

/-! ## Formats and elements -/

def bFloat? : BFmt → Option Fmt
  | .e4m3 => some e4m3 | .e5m2 => some e5m2 | .bf16 => some bf16 | .f16 => some f16
  | _ => none
def aFloat? : AFmt → Option Fmt
  | .e4m3 => some e4m3 | .e5m2 => some e5m2 | .bf16 => some bf16 | .f16 => some f16
  | _ => none
/-- R269: bytes of an element and the height of a patch or slice. -/
def bBytes : BFmt → Nat
  | .bf16 | .f16 | .i16 => 2
  | _ => 1
def aBytes : AFmt → Nat
  | .bf16 | .f16 => 2
  | _ => 1
def height (bytes : Nat) : Nat := if bytes = 2 then 32 else 64
/-- R115: planes fed. -/
def aPlanes : AFmt → Nat
  | .bf16 | .f16 => 16
  | .pi j => j.toNat
  | _ => 8
/-- R115: the width of an aligned field. -/
def fieldW (f : Fmt) : Nat := if f.fp8 then 8 else if f.fb = 7 then 12 else 16

/-- R115, R269: whether an A format pairs with a recorded B format; none recorded pairs with every one. -/
def pairs (a : AFmt) (b : Option BFmt) : Bool :=
  match b with
  | none => true
  | some b =>
    match a with
    | .e4m3 | .e5m2 => b == .e4m3 || b == .e5m2
    | .bf16 => b == .bf16
    | .f16 => b == .f16
    | .i8 | .pi _ => b == .i8 || b == .pi || b == .i16

/-- R80: the byte whose bits are the planes of element e, plane 7 its sign. -/
def planeElem (t : Tile) (e : Nat) : Nat :=
  let q := e / 512
  let o := e % 512
  ((List.range 8).map fun p =>
    (if (tileByte t (512 * q + 64 * (7 - p) + o / 8)).getLsbD (o % 8) then 2 ^ p else 0)).sum
/-- A byte as a signed integer. -/
def sByte (n : Nat) : Int := (BitVec.ofNat 8 n).toInt
/-- R104: the view of the first j planes. -/
def planeView (n j : Nat) : Int := sByte n / (2 ^ (8 - j) : Int)

/-- R270: element e of a B patch, as the 16 bits the array keeps: a float's pattern, or an integer. -/
def bElem (t : Tile) (f : BFmt) (e : Nat) : Nat :=
  let byte := (tileByte t e).toNat
  match f with
  | .e4m3 | .e5m2 => byte
  | .bf16 | .f16 | .i16 => (tileByte t (2 * e)).toNat + 256 * (tileByte t (2 * e + 1)).toNat
  | .i8 => (BitVec.ofInt 16 (sByte byte)).toNat
  | .pi =>
    let k := match t.kind with
      | .pi k => k.toNat
      | _ => 8
    (BitVec.ofInt 16 (planeView (planeElem t e) k)).toNat

/-- R271: element (i, t) of an A tile: a float's pattern, or the integer fed. -/
def aElem (tl : Tile) (f : AFmt) (i t : Nat) : Int :=
  match f with
  | .e4m3 | .e5m2 => (tileByte tl (64 * i + t)).toNat
  | .bf16 | .f16 => (tileByte tl (64 * i + 2 * t)).toNat + 256 * (tileByte tl (64 * i + 2 * t + 1)).toNat
  | .i8 => sByte (tileByte tl (64 * i + t)).toNat
  | .pi j => planeView (planeElem tl (64 * i + t)) j.toNat

/-! ## B (R269, R270) -/

def bAt (e : EngState) (k n : Nat) : Nat := e.bplanes.readN (2 * (128 * k + n)) 2
/-- R270: one 1 KiB patch; another format clears B first. -/
def loadPatch (e : EngState) (t : Tile) (kb nb : Nat) (f : BFmt) : EngState :=
  let h := height (bBytes f)
  let m0 : Memory := if e.loaded = some f then e.bplanes else []
  let m := (List.range h).foldl (fun (m : Memory) r => (List.range 16).foldl (fun (m : Memory) u =>
    m.writeN (2 * (128 * (h * kb + r) + 16 * nb + u)) 2 (bElem t f (16 * r + u))) m) m0
  { e with bplanes := m, loaded := some f }

/-! ## One run (R116 to R119) -/

/-- R116: the unbiased exponent of an encoding. -/
def expOf (f : Fmt) (n : Nat) : Int :=
  let e := n / 2 ^ f.fb % 2 ^ f.eb
  (if e = 0 then 1 else (e : Int)) - f.bias
def maxExp (f : Fmt) (l : List Nat) : Int := l.foldl (fun m n => max m (expOf f n)) (1 - (f.bias : Int))
/-- R118: NaN or infinity. -/
def special (f : Fmt) (n : Nat) : Bool :=
  match f.dec n with
  | .fin _ _ _ => false
  | _ => true
/-- R116: the aligned field under a group exponent. -/
def aligned (f : Fmt) (g : Int) (n : Nat) : Int :=
  match f.dec n with
  | .fin s m e =>
    let sh := e + (fieldW f : Int) - 2 - g
    FV.int s (if 0 ≤ sh then m * 2 ^ sh.toNat else m / 2 ^ (-sh).toNat)
  | _ => 0

/-- R117, R118: one update D + G, to nearest, with the default NaN. -/
def addGroup (d : Lane) (bad : Bool) (p : Int) (s : Int) : Lane :=
  if bad then BitVec.ofNat 32 f32.dnan
  else
    let g := (f32.round .rn (decide (p < 0)) p.natAbs s).1
    let r := (f32.add .rn d.toNat g).1
    BitVec.ofNat 32 (if (f32.dec r).isNan then f32.dnan else r)

/-- The A rows of a run: element κ of row i, for K positions lo to lo + n − 1. -/
structure Feed where
  f : AFmt
  lo : Nat
  n : Nat
  row : List (List Int)
  deriving DecidableEq, Repr

def Feed.at (x : Feed) (i κ : Nat) : Int := if x.lo ≤ κ ∧ κ < x.lo + x.n then (x.row.getD i []).getD (κ - x.lo) 0 else 0
/-- Groups a run supplies, in ascending order. -/
def Feed.groups (x : Feed) : List Nat := (List.range ((x.n + x.lo % 32 + 31) / 32)).map fun g => x.lo / 32 + g

/-- R117: element (i, j) of the output on the float path. -/
def floatElem (e : EngState) (x : Feed) (fa fb : Fmt) (i j : Nat) (d : Lane) : Lane :=
  x.groups.foldl (fun d g =>
    let as := (List.range 32).map fun t => (x.at i (32 * g + t)).toNat
    let bs := (List.range 32).map fun t => bAt e (32 * g + t) j
    let ea := maxExp fa as
    let eb := maxExp fb bs
    let p := ((List.range 32).map fun t => aligned fa ea (as.getD t 0) * aligned fb eb (bs.getD t 0)).foldl (fun x y => x + y) 0
    addGroup d (as.any (special fa) || bs.any (special fb)) p (ea + eb - ((fieldW fa : Int) - 2) - ((fieldW fb : Int) - 2))) d
/-- R119: on the integer path. -/
def intElem (e : EngState) (x : Feed) (i j : Nat) (d : Lane) : Lane :=
  let p := ((List.range x.n).map fun t =>
    x.at i (x.lo + t) * (BitVec.ofNat 16 (bAt e (x.lo + t) j)).toInt).foldl (fun x y => x + y) 0
  d + BitVec.ofInt 32 p

def accAt (e : EngState) (r c : Nat) : Lane := e.acc.getD (128 * r + c) 0
/-- A run into accumulator rows 16r to 16r + 15, every column (R271). -/
def runInto (e : EngState) (x : Feed) (r : Nat) : EngState :=
  let new := fun i j =>
    let d := accAt e (16 * r + i) j
    match aFloat? x.f with
    | some fa => floatElem e x fa ((e.loaded.bind bFloat?).getD fa) i j d
    | none => intElem e x i j d
  { e with acc := (List.range 16).foldl (fun (m : SMap Lane) i => (List.range 128).foldl (fun (m : SMap Lane) j =>
      m.put (128 * (16 * r + i) + j) (new i j)) m) e.acc }
/-- R272: 16 accumulator rows become +0. -/
def zeroRows (e : EngState) (r : Nat) : EngState := { e with acc := e.acc.filter fun x => x.1 / 2048 != r }
/-- R271: the A rows c tiles supply from slice ks on. -/
def tileFeed (f : AFmt) (ks : Nat) (ts : List Tile) : Feed :=
  let h := height (aBytes f)
  { f := f, lo := h * ks, n := h * ts.length,
    row := (List.range 16).map fun i => ts.flatMap fun t => (List.range h).map fun k => aElem t f i k }
/-- R272: 1 KiB of a drain, and the bank after it. -/
def drainBytes (e : EngState) (r nb : Nat) : List Byte :=
  (List.range 16).flatMap fun i => (List.range 16).flatMap fun j => leBytes 4 (accAt e (16 * r + i) (16 * nb + j)).toNat
def drainClear (e : EngState) (r nb : Nat) : EngState :=
  { e with acc := e.acc.filter fun x => !(x.1 / 2048 == r && x.1 % 128 / 16 == nb) }

/-! ## Convolution shapes (R273) -/

structure Shape where
  pad : Nat
  str : Nat
  kh : Nat
  kw : Nat
  ch : Nat
  ih : Nat
  iw : Nat
  pix : Nat
  rowp : Nat
  deriving DecidableEq, Repr

def shapeOf (a b : Word) : Shape :=
  { pad := (a.extractLsb' 53 3).toNat, str := (a.extractLsb' 50 3).toNat + 1, kh := (a.extractLsb' 46 4).toNat + 1,
    kw := (a.extractLsb' 42 4).toNat + 1, ch := (a.extractLsb' 32 10).toNat, ih := (a.extractLsb' 16 16).toNat,
    iw := (a.extractLsb' 0 16).toNat, pix := (b.extractLsb' 32 16).toNat, rowp := (b.extractLsb' 0 32).toNat }
def Shape.ow (s : Shape) : Int := ((s.iw : Int) + 2 * s.pad - s.kw) / (s.str : Int) + 1
def Shape.oh (s : Shape) : Int := ((s.ih : Int) + 2 * s.pad - s.kh) / (s.str : Int) + 1
def Shape.k (s : Shape) : Nat := s.kh * s.kw * s.ch
/-- R273: what CVSHAPE refuses. The ranges of CH, IH, IW are those of the table. -/
def shapeBad (a b : Word) (cap : Nat) : Bool :=
  let s := shapeOf a b
  a.extractLsb' 56 8 != 0 || b.extractLsb' 48 16 != 0 || decide (s.ow < 1) || decide (s.oh < 1) || decide (cap < s.k) ||
    s.ch == 0 || decide (512 < s.ch) || s.ih == 0 || s.iw == 0
/-- Where A element κ of output position o comes from: pixel column, row and channel; none outside. -/
def Shape.src (s : Shape) (o κ : Nat) : Option (Nat × Nat × Nat) :=
  let ow := s.ow.toNat
  let x : Int := ((o % ow) * s.str + κ / s.ch % s.kw : Nat) - (s.pad : Int)
  let y : Int := ((o / ow) * s.str + κ / s.ch / s.kw : Nat) - (s.pad : Int)
  if 0 ≤ x ∧ x < s.iw ∧ 0 ≤ y ∧ y < s.ih ∧ o < ow * s.oh.toNat then some (x.toNat, y.toNat, κ % s.ch) else none

end Sys2Proof.Machine
end

