-- ==== Sys2Proof/Machine/Lease.lean ====
section
/-! DEFINITION. Barrier objects, and leases as other parts of the machine see them: handles, commands that end unwritten, eviction, abort, release (spec/06 R141 to R143, spec/07 R151 to R164, spec/18 R338). -/
namespace Sys2Proof.Machine

/-! ## Barrier objects (R142, R143) -/

structure BarObj where
  phase : Bool
  evb : Bool
  expb : Nat
  pendb : Nat
  arrcnt : Nat
  exparr : Nat
  deriving DecidableEq, Repr

def BarObj.read (m : Memory) (off : Nat) : BarObj :=
  let v := m.readN off 16
  ⟨v.testBit 127, v.testBit 126, v / 2 ^ 96 % 2 ^ 30, v / 2 ^ 64 % 2 ^ 32, v / 2 ^ 32 % 2 ^ 32, v % 2 ^ 32⟩
def BarObj.write (b : BarObj) (m : Memory) (off : Nat) : Memory :=
  m.writeN off 16 (b.phase.toNat * 2 ^ 127 + b.evb.toNat * 2 ^ 126 + b.expb % 2 ^ 30 * 2 ^ 96 + b.pendb % 2 ^ 32 * 2 ^ 64
    + b.arrcnt % 2 ^ 32 * 2 ^ 32 + b.exparr % 2 ^ 32)
/-- R143: the update that leaves both counts at zero inverts the phase and starts the next. -/
def BarObj.settle (b : BarObj) : BarObj :=
  if b.arrcnt = 0 ∧ b.pendb = 0 then { b with phase := !b.phase, arrcnt := b.exparr, pendb := b.expb } else b
/-- R254. -/
def BarObj.upd (b : BarObj) : BarUpd → BarObj
  | .init arr ex =>
    let a := if arr = 0 then 1 else arr
    ⟨false, false, ex, ex, a, a⟩
  | .arrive => BarObj.settle { b with arrcnt := b.arrcnt - 1 }
  | .expect n => BarObj.settle { b with pendb := min (b.pendb + n) (2 ^ 32 - 1) }
/-- R143, R141: a command's bytes; an evicted one's set EVB. -/
def BarObj.credit (b : BarObj) (n : Nat) (ev : Bool) : BarObj :=
  BarObj.settle { b with pendb := b.pendb - n, evb := b.evb || ev }

/-- An LDRES of the warp that has not been served yet. -/
def Warp.unread (w : Warp) (id : Nat) : Bool := w.ops.any fun o => o.id == id && o.accs.any fun a => a.val.isNone
/-- R138, R252: a write applied by an agent clears the reservations of the other warps on the line (global) or word (scratchpad)
that were read before it, and the STCONs that rest on one fail. -/
def loseRes (s : State) (me : Nat) (sp : Bool) (core pa n : Nat) : State :=
  let hit := fun (w : Warp) (a m : Nat) =>
    if sp then w.core == core && decide (a < pa + n) && decide (pa < a + m) else a / 64 == pa / 64
  let f := fun (w : Warp) =>
    if w.key = me then w
    else
      let w := match w.ldr with
        | some r => if r.sp == sp && hit w r.addr (if r.w64 then 8 else 4) && !w.unread r.op then { w with ldrLost := true } else w
        | none => w
      { w with ops := w.ops.map fun (o : Op) => match o.k with
          | .stcon true rd =>
            if o.sp == sp && !w.unread rd && o.accs.any (fun a => !a.applied && hit w a.addr a.n) then
              { o with k := OpK.stcon false rd } else o
          | _ => o }
  { s with w := if s.w.real then f s.w else s.w, warps := s.warps.mapVals fun _ w => f w }

/-- One indivisible update of an object at its bank by an agent (R142, R254). -/
def barUpdate (s : State) (me core off : Nat) (f : BarObj → BarObj) : State :=
  loseRes (s.modCore core fun c => { c with sp := (f (BarObj.read c.sp off)).write c.sp off }) me true core off 16
def barCredit (s : State) (core : Nat) (bar : Option (Nat × Nat)) (ev : Bool) : State :=
  match bar with
  | none => s
  | some (off, n) => barUpdate s agentKey core off fun b => b.credit n ev

/-! ## Handles (R153 to R156) -/

def leave : EngClass → Nat
  | .mx => 18 | .dm => 2 | .cv => 4 | .cl => 12
def instances : EngClass → Nat
  | .mx => 32 | .dm => 16 | .cv => 4 | .cl => 2
def classNo : EngClass → Nat
  | .mx => 0 | .dm => 1 | .cv => 2 | .cl => 3
def handleWord (gen : Nat) (cls : EngClass) (sh : Bool) (inst : Nat) : Word :=
  BitVec.ofNat 64 (gen % 2 ^ 16 * 2 ^ 32 + classNo cls * 1024 + sh.toNat * 512 + inst)
def failWord (code : Nat) : Word := BitVec.ofNat 64 (code * 2 ^ 16 + 256)

/-- The lease of the warp's gang that a handle names. -/
def leaseOf (s : State) (w : Warp) (h : Word) : Option Lease :=
  match (s.cluster w.cluster).leases.get? h.toNat with
  | some l => if l.lid = w.id.lid ∧ l.gang = w.id.gang ∧ l.gone = false then some l else none
  | none => none

namespace State

def lease? (s : State) (cl key : Nat) : Option Lease := (s.cluster cl).leases.get? key
def modLease (s : State) (cl key : Nat) (f : Lease → Lease) : State :=
  s.modCluster cl fun c => { c with leases := c.leases.modify key f }
def dropLease (s : State) (cl key : Nat) : State :=
  s.modCluster cl fun c => { c with leases := c.leases.del key }

end State

/-- The name a command writes (R141). -/
def Cmd.dest : Cmd → Option Nat
  | .drain n _ _ _ _ => some n
  | _ => none
/-- The tag of a collective. -/
def Cmd.tag : Cmd → Option Nat
  | .reduce t _ _ _ => some t
  | .gatherC t _ => some t
  | .bcast t _ => some t
  | _ => none
/-- R141: a command ends unwritten: its tile destination becomes READY with VOID, its barrier object is credited in full
with EVB set, its operation completes. -/
def endNow (s : State) (cl : Nat) (q : QCmd) : State :=
  let s := match q.c.dest with
    | some n => s.writeLost cl n q.tag
    | none => s
  let core := q.warp / 32
  let s := barCredit s core q.bar true
  let s := match q.c.tag, s.warp? q.warp with
    | some t, some w => s.modLaunch w.id.lid fun l => { l with dead := l.dead ++ [(t, q.num)] }
    | _, _ => s
  s.modWarp q.warp fun w => w.complete q.op
/-- R254: the command's barrier object has a barrier instruction of the issuer before it that has not been applied. -/
def barBefore (s : State) (q : QCmd) : Bool :=
  q.bar.any fun b => (s.warp? q.warp).any fun w => w.ops.any fun o => decide (o.id < q.op) && !o.done && (match o.k with
    | .bar _ => o.accs.any fun a => a.addr == b.1
    | _ => false)
/-- The same in the order of R254: earlier barrier instructions come first (ENGINE_STOP, which follows at once). -/
def endLost (s : State) (cl : Nat) (q : QCmd) : State :=
  if barBefore s q then (s.modCluster cl fun k => { k with lost := k.lost ++ [q] }).post .engineStop { cluster := cl, key := 2 ^ 64 }
  else endNow s cl q
/-- The same for a command whose reads of tile names were outstanding. -/
def endUnwritten (s : State) (cl : Nat) (q : QCmd) : State := endLost (q.c.srcs.foldl (fun s n => s.tileReadDone cl n) s) cl q

/-- What a command's work costs (R368): classes with their units. -/
def QCmd.units (q : QCmd) : List (Nat × Nat) :=
  match q.c with
  | .loadb _ _ _ _ | .drain _ _ _ _ _ => [(7, 16)]
  | .run _ _ _ f => [(6, 4 * aPlanes f)]
  | .conv _ f _ =>
    let h := height (aBytes f)
    [(6, 4 * aPlanes f), (9, ((shapeOf (q.regs.getD 2 0) (q.regs.getD 3 0)).k + h - 1) / h)]
  | .zero _ | .shape => []
  | .copy _ | .fill _ _ | .gather _ _ _ | .scatter _ _ _ => [(8, ((q.dst.map Acc.n).sum + 1023) / 1024)]
  | .reduce _ _ _ _ | .gatherC _ _ | .bcast _ _ => [(10, ((q.dst.map Acc.n).sum + 1023) / 1024)]
/-- The command's work is charged whole. -/
def chargeWork (s : State) (q : QCmd) : State :=
  let w := (s.warp? q.warp).getD {}
  q.units.foldl (fun s u => charge s w.id.vdev w.die u.1 0 u.2) s
/-- R368: a running command that is evicted or aborted is charged the units it completed before it stopped, a number the spec does not
give. -/
def chargePart (s : State) (q : QCmd) : State :=
  let w := (s.warp? q.warp).getD {}
  q.units.foldl (fun s u =>
    { charge s w.id.vdev w.die u.1 0 ((Config.freeValue s.freeCtr).toNat % (u.2 + 1)) with freeCtr := s.freeCtr + 1 }) s

/-- A command has ended at its engine and none of its writes has been applied: it can still end unwritten (log 40). -/
def unapplied (s : State) (q : QCmd) : Bool :=
  q.worked && (s.warp? q.warp).any fun w => (w.op? q.op).any fun o => o.accs.all fun a => !a.applied
/-- Its writes are taken back. -/
def callBack (s : State) (q : QCmd) : State :=
  if q.worked then s.modWarp q.warp fun w => w.modOp q.op fun o => { o with k := .cmd, accs := [] } else s

/-- A parked command ends unwritten where it is recorded: its path goes on as if it had been served, and what it had read is read. -/
def endRecord (s : State) (w : Warp) (i : Nat) (pk : Park) (q : QCmd) : State :=
  let s := (pk.name :: pk.need).eraseDups.foldl
    (fun s n => s.modTile w.cluster n fun t => { t with parked := t.parked.erase (recId w.key i) }) (s.noteUnpark w pk.name)
  let s := pk.got.foldl (fun s n => s.tileReadDone w.cluster n) s
  endLost (s.modWarp w.key fun w => w.leavePark i pk) w.cluster q
/-- The paths with a record. -/
def Warp.recordPaths (w : Warp) : List Nat := w.pid :: w.parks.map Prod.fst
/-- The parked commands of a warp that are to end do so (R163, R338). -/
def endRecords (s : State) (k : Nat) (lost : Nat → Bool) : State :=
  match s.warp? k with
  | none => s
  | some w => w.recordPaths.foldl (fun s i =>
    match (s.warp? k).bind fun w => (w.recordOf i).map fun pk => (w, pk) with
    | some (w, pk) => match pk.k with
      | .cmd l q => if lost l then endRecord s w i pk q else s
      | _ => s
    | none => s) s
/-- The warps of a cluster. -/
def clusterWarps (s : State) (cl : Nat) : List Warp := s.allWarps.filter fun w => w.cluster == cl

/-- The engine stops (R163): its state is lost and every command on the lease ends unwritten, those parked on their tiles too, but for
one some of whose released writes have been applied (log 40). What was recorded at issue stays for the checks of later commands
(R154, R269, R273). -/
def stopEngine (s : State) (cl key : Nat) : State :=
  match s.lease? cl key with
  | none => s
  | some l =>
    let s := if decide (l.wakeAt ≤ s.now) then (l.queue.head?.filter fun q => !q.worked).elim s (chargePart s) else s
    let s := (l.queue.filter fun q => !q.worked || unapplied s q).foldl (fun s q => endUnwritten (callBack s q) cl q)
      (s.modLease cl key fun x => { x with queue := [], stopping := false, eng := { bfmt := x.eng.bfmt, shape := x.eng.shape } })
    let s := (clusterWarps s cl).foldl (fun s w => endRecords s w.key fun k => k == key) s
    -- an array that is evicted keeps no vacated context either (R169)
    let s := if l.st == .evicted && l.sh then
        s.modCluster cl fun c => { c with retained := c.retained.filter fun r => !(r.cls == l.cls && r.inst == l.inst) }
      else s
    if l.gone then s.dropLease cl key else s

/-- R406, kind 8: a lease's handle and its state: 0 LIVE, 1 RETAINED, 2 EVICTED, as LSTAT has them (log 34). -/
def traceLease (s : State) (w : Warp) (key st : Nat) : State := trace s w 8 key st 0
/-- R163: the decision to evict: EVICTED at once; an engine that runs no command stops in the same cycle. -/
def evictLease (s : State) (cl key : Nat) (revoke : Bool) : State :=
  match s.lease? cl key with
  | none => s
  | some l =>
    if l.st == .evicted then s
    else
      let s := (s.countOn l.vdev cl 10).actOn l.vdev (if revoke then 2 else 1) (classNo l.cls) 1
      let s := traceLease s { id := { part := l.part, gang := l.gang } } key 2
      let s := s.modLease cl key fun x => { x with
        st := .evicted, stopping := true, evictAt := s.now, gone := l.st == .vacating }
      if (l.queue.head?.all fun q => q.worked) || decide (s.now < l.wakeAt) || revoke then stopEngine s cl key else s

/-- R156: LSTAT's word; a VACATING lease, or none, reads INVALID. AWAKE of a VACATING lease reads 0 whatever its wake latency (log 51). -/
def lstatWord (now : Nat) (l : Option Lease) : Word :=
  match l with
  | none => 3
  | some l =>
    let st : Nat := match l.st with
      | .waking | .live => if l.kept then 1 else 0
      | .evicted => 2
      | .vacating => 3
    let awake := decide (st ≠ 3) && decide (l.wakeAt ≤ now)
    BitVec.ofNat 64 (st + 4 * l.poison.toNat + 8 * awake.toNat + 16 * l.aborted.toNat)

/-- R338: aborted accumulator rows become +0. -/
def abortRows (c : Cmd) (e : EngState) : EngState :=
  let rows : Option Nat := match c with
    | .run _ _ r _ => some r
    | .zero r => some r
    | .conv r _ _ => some r
    | _ => none
  match rows with
  | none => e
  | some r => { e with acc := e.acc.filter fun x => x.1 / 128 / 16 != r }

/-- R338: the array rows that a command targets become +0; those of a convolution are rows of the array it feeds. -/
def dropRows (s : State) (cl key : Nat) (q : QCmd) : State :=
  s.modLease cl (q.array key) fun x => { x with eng := abortRows q.c x.eng }
/-- R338: the commands of a warp that have not started are dropped, with those whose writes have been released and not applied and those
parked on their tiles; a running one is marked and stops at a tile boundary. -/
def abortCommands (s : State) (k : Nat) : State :=
  let cl := k / 32 / 8
  let s := (s.cluster cl).leases.foldl (fun s e =>
    let run := e.2.queue.head?.filter fun q => q.warp == k && !q.worked && decide (e.2.wakeAt ≤ s.now)
    let mine := e.2.queue.filter fun q => q.warp == k && some q != run && (!q.worked || unapplied s q)
    let s := s.modLease cl e.1 fun x => { x with
      queue := (x.queue.filter fun q => !mine.contains q).map fun q => if some q == run then { q with aborted := true } else q }
    mine.foldl (fun s q => endUnwritten (dropRows (callBack s q) cl e.1 q) cl q) s) s
  let lost : List (Nat × QCmd) := match s.warp? k with
    | some w => w.records.filterMap fun (pk : Park) => match pk.k with
      | .cmd l q => some (l, q)
      | _ => none
    | none => []
  endRecords (lost.foldl (fun s x => dropRows s cl x.1 x.2) s) k fun _ => true

/-- R338: the tl operations of a warp other than reads into registers end unwritten: a TSTORE parked on its tile, and one whose rows are on
their way with none applied, too. -/
def abortTile (s : State) (k : Nat) : State :=
  match s.warp? k with
  | none => s
  | some w =>
    (w.ops.filter fun o => o.cls == .tl && !o.done).foldl (fun s o =>
      match o.k with
      | .twrite _ _ | .tload _ => (s.writeLost w.cluster o.name o.tag).modWarp k fun w => w.complete o.id
      | .tstore _ _ _ =>
        match w.recordPaths.findSome? fun i => ((w.recordOf i).filter fun pk => pk.op == o.id).map fun pk => (i, pk) with
        | some (i, pk) =>
          ((s.noteUnpark w pk.name).modTile w.cluster pk.name fun t => { t with parked := t.parked.erase (recId k i) }).modWarp k
            fun w => (w.leavePark i pk).complete o.id
        | none => (s.tileReadDone w.cluster o.name).modWarp k fun w => w.complete o.id
      | .put =>
        if o.accs.all fun a => !a.applied then s.modWarp k fun w => (w.modOp o.id fun o => { o with accs := [] }).complete o.id else s
      | _ => s) s

def abortWarp (s : State) (k : Nat) : State := abortTile (abortCommands s k) k

/-- Whether a warp still has operations that TABORT waits for (R338): one that stops, and one that has ended and is partly visible. -/
def abortPending (s : State) (k : Nat) : Bool :=
  (s.warp? k).any (fun w => w.ops.any fun o => match o.k with
    | .put | .land _ _ => !o.done
    | _ => false) ||
  (s.cluster (k / 32 / 8)).leases.any fun e => e.2.queue.any fun q => q.warp == k && q.aborted

/-- R154: at gang end its leases are released without retention. -/
def releaseLeases (s : State) (lid : Word) (g cl : Nat) : State :=
  (s.cluster cl).leases.foldl (fun s e =>
    if e.2.lid = lid ∧ e.2.gang = g then (stopEngine s cl e.1).dropLease cl e.1 else s) s

/-- R157, R88: what a warp has recorded elsewhere is withdrawn: its lease request and its parked operation. -/
def withdrawAll (s : State) (k : Nat) : State :=
  (s.withdraw k).modCluster (k / 32 / 8) fun c => { c with queue := c.queue.filter fun r => r.warp != k }
/-- The same for what the warp's current path has recorded. -/
def withdrawHere (s : State) (k : Nat) : State :=
  (s.withdrawCur k).modCluster (k / 32 / 8) fun c => { c with queue := c.queue.filter fun r => r.warp != k }

end Sys2Proof.Machine
end

