-- ==== Sys2Proof/Machine/Home.lean ====
section
/-! DEFINITION. What a write does at the home of its line (spec/06 R130, R138, R146 to R148, spec/18 R345, spec/21 R411): publication windows, memory, poison, reservations, and the pages of a launch that is captured. -/
namespace Sys2Proof.Machine

/-- Units of a window: page n of it is mapped at this physical page. -/
def rangeHas (s : State) (x : Window) (va len pa : Nat) : Bool :=
  (List.range len).any fun i =>
    match walk s (s.part x.part) (va + 4096 * i) with
    | .leaf e level => (ptePA e + (va + 4096 * i) % levelSize level) / 4096 == pa / 4096
    | _ => false
/-- A physical page of the range in force or of the one written last. -/
def windowHas (s : State) (x : Window) (pa : Nat) : Bool :=
  rangeHas s x x.va x.len pa || x.live.any fun r => rangeHas s x r.1 r.2.1 pa
/-- A write of n bytes at a home: what windows it lies in remember of the bytes before it (R148). -/
def noteWindows (s : State) (dom pa n td : Nat) : State :=
  if s.io.windows.isEmpty then s
  else
    let add := (List.range n).map fun i => (td, pa + i, BitVec.ofNat 8 (readPhys s dom (pa + i) 1))
    let f := fun (_ : Nat) (x : Window) => if windowHas s x pa then { x with later := x.later ++ add } else x
    s.modIo fun io => { io with windows := io.windows.mapVals f }
/-- R345: a write of a whole line replaces poisoned data. -/
def healLine (s : State) (pa n : Nat) : State :=
  if n = 64 then { s with memPoison := s.memPoison.filter fun l => l != pa / 64 } else s
/-- R412: the replay that runs: not every launch has its report yet. -/
def replaying (s : State) : Option Replay := s.io.replay.filter fun r => decide (r.results.length < r.n)
/-- R411: while a virtual device is captured or replayed, a launch's writes mark their pages. -/
def capturing (s : State) (vd : Nat) : Bool := s.io.capture.any (fun c => c.vdev == vd) || (replaying s).any (fun r => r.vdev == vd)
def markPage (s : State) (lid : Word) (va : Nat) : State :=
  match s.launches.get? lid.toNat with
  | none => s
  | some l =>
    if capturing s l.vdev && !l.pages.contains (va / 4096) then
      { s with launches := s.launches.put lid.toNat { l with pages := l.pages ++ [va / 4096] } }
    else s

/-- Writes at a global home: windows, memory, poison, reservations. -/
def homeWrite (s : State) (me dom pa n v td : Nat) : State :=
  let s := noteWindows s dom pa n td
  loseRes (healLine (writePhys s dom pa n v) pa n) me false 0 pa n
/-- Writes consecutive 8-byte words at their homes (R321, R341); none is written if one cannot be. -/
def writeWords (s : State) (w : Warp) (va : Nat) : List Word → Except Nat State
  | [] => .ok s
  | v :: vs =>
    if va ≥ 2 ^ 56 then .error 0x04
    else match translate s w .store va with
      | .fault c => .error c
      | .ok pa e =>
        match writeWords s w (va + 8) vs with
        | .error c => .error c
        | .ok s' =>
          .ok (takePin (homeWrite (if w.real then markPage s' w.id.lid va else s') (if w.real then w.key else agentKey) (pteDom e) pa 8
            v.toNat (s.now + domainSkew w.id.onePkg)) e pa)

end Sys2Proof.Machine
end

