-- ==== Sys2Proof/Machine/Ops.lean ====
section
/-! DEFINITION. The named operations that meanings share: the journal and the trace, baton transfers, reservations, taking a trap and returning from one, ending warps and gangs, synchronisation (spec/02, spec/03, spec/17, spec/18, spec/20). -/
namespace Sys2Proof.Machine

/-! ## The Assize journal (R149, R396 to R399) -/

def asciiAssize : List Byte := [0x41, 0x39, 0x36, 0x30, 0x20, 0x41, 0x73, 0x73, 0x69, 0x7A, 0x65]
def bitsLE (n : Nat) (v : Nat) : List Byte := leBytes n v

/-- Bytes 0x00 to 0x9F of a record (R396). -/
def JRec.bytes (r : JRec) : List Byte :=
  leBytes 8 r.seq ++ leBytes 8 r.jidx ++ leBytes 8 r.time ++
  leBytes 8 (r.kind % 2 ^ 16 + r.part % 256 * 2 ^ 16 + r.vdev % 256 * 2 ^ 24) ++
  (if r.kind = 9 then (leBytes 114 r.sig.toNat ++ List.replicate 14 0)
   else (List.range 16).flatMap fun i => leBytes 8 (r.words.getD i 0))

/-- R397. -/
def hashRec (r : JRec) : BitVec 512 := shake512 (leBytes 64 r.link.toNat ++ r.bytes)

def journalFull (s : State) : Bool := decide (Config.journalCap ≤ s.io.journal.ring.length)

/-- Places a record in the ring under the next sequence number (R149, R396). -/
def placeRec (s : State) (kind part vdev time : Nat) (words : List Nat) (sign : Bool) : State :=
  let j := s.io.journal
  let seq := s.io.seq + 1
  let pad := (List.range 15).map fun i => words.getD i 0
  let sig := if sign then Config.ed448 asciiAssize (leBytes 64 j.link.toNat ++ leBytes 8 seq) else 0
  let r : JRec := ⟨seq, j.jidx, time, if vdev = 0xFF then vdev else vdev % 4, part, kind, if sign then [] else pad ++ [j.lost], sig, j.link⟩
  s.modIo fun io => { io with seq := seq, journal := { j with
    ring := j.ring ++ [r], jidx := j.jidx + 1, link := hashRec r,
    sinceSign := if sign then 0 else j.sinceSign + 1,
    jseq := j.jseq.put part seq } }

/-- R398: a SIGN record. -/
def signRec (s : State) : State := placeRec s 9 0xFF 0xFF s.now [] true
/-- R398: a SIGN record follows 255 others. -/
def signDue (s : State) : State :=
  if 255 ≤ s.io.journal.sinceSign ∧ ¬ journalFull s then signRec s else s

/-- Appends a record of an event at a time, or lets it wait for a place (R399). -/
def journalAt (s : State) (kind part vdev time : Nat) (words : List Nat) : State :=
  let j := s.io.journal
  if journalFull s || !j.buffer.isEmpty then
    s.modIo fun io => { io with journal := { j with buffer := j.buffer ++ [{ kind, part, vdev, time, words }] } }
  else signDue (placeRec s kind part vdev time words false)
def journal (s : State) (kind part vdev : Nat) (words : List Nat) : State := journalAt s kind part vdev s.now words

/-- R396: how long a FIREWALL record counts violations of its link and address, in ns. -/
def fireSpan : Nat := 1000
/-- FIREWALL and NOTE records in the 64-entry buffer (R399). -/
def smallRecs (j : Journal) : Nat := (j.buffer.filter fun b => b.kind == 4 || b.kind == 7).length + j.fire.length
/-- R382, R383, R396, R399: a violation of a link at an address: FWLOG, the count, and the FIREWALL record, which holds the violations
of 1 µs. One that finds the buffer full is counted in LOST. -/
def violation (s : State) (pid vdev link pa cls : Nat) : State :=
  let s := s.modPart pid fun p => { p with fwlog := true, fwaddr := if p.fwlog then p.fwaddr else pa, fwcount := p.fwcount + 1 }
  let j := s.io.journal
  let same := fun (b : JWait) => b.part == pid && b.words.getD 0 0 == link && b.words.getD 1 0 == pa && b.words.getD 3 0 == cls &&
    decide (s.now < b.time + fireSpan)
  let j := if j.fire.any same then
      { j with fire := j.fire.map fun b => if same b then { b with words := [link, pa, b.words.getD 2 0 + 1, cls] } else b }
    else if Config.noteCap ≤ smallRecs j then { j with lost := j.lost + 1 }
    else { j with fire := j.fire ++ [{ kind := 4, part := pid, vdev := vdev, time := s.now, words := [link, pa, 1, cls] }] }
  s.modIo fun io => { io with journal := j }
/-- The FIREWALL records whose 1 µs is over. -/
def violationsOver (s : State) : State :=
  let j := s.io.journal
  if j.fire.isEmpty then s
  else
    let out := j.fire.filter fun b => decide (b.time + fireSpan ≤ s.now)
    out.foldl (fun s b => journalAt s b.kind b.part b.vdev b.time b.words)
      (s.modIo fun io => { io with journal := { j with fire := j.fire.filter fun b => decide (s.now < b.time + fireSpan) } })

/-! ## Batons (R25 to R45) -/

/-- R51: events that clear the warp's load reservation. -/
def Warp.clearRes (w : Warp) : Warp := { w with ldr := none }

/-- R32: visits candidates from c on along FSUCC; the warp at which the walk ends. -/
def walkGo (s : State) (core g : Nat) : Nat → Nat → Option Nat
  | 0, _ => none
  | n + 1, c =>
    if c = g then none
    else match s.warp? (32 * core + c) with
      | none => none
      | some w => if w.eligible then some c else walkGo s core g n w.walkFs
/-- R32: the successor walk from warp g. -/
def succWalk (s : State) (core g : Nat) : Option Nat :=
  match s.warp? (32 * core + g) with
  | some w => walkGo s core g w.id.nwarps w.walkFs
  | none => none
/-- R41: whether a failed walk met a halted or stopped candidate that could otherwise take the baton. -/
def walkMetStopped (s : State) (core g : Nat) : Nat → Nat → Bool
  | 0, _ => false
  | n + 1, c =>
    if c = g then false
    else match s.warp? (32 * core + c) with
      | none => false
      | some w => (w.life == .live && !w.holding && w.isStopped) || walkMetStopped s core g n w.walkFs

/-- R38: the eligible warp of the block with the greatest age above the limit; the lower index between equals. -/
def rescueWarp (s : State) (core : Nat) : Option Nat :=
  ((s.blockWarps core).foldl (fun best w =>
    if w.eligible && decide (Config.rescueAge < w.age) then
      match best with
      | none => some (w.idx, w.age)
      | some b => if b.2 < w.age then some (w.idx, w.age) else best
    else best) (none : Option (Nat × Nat))).map Prod.fst
/-- R38: the receiver of a slip or tenure transfer. -/
def receiver (s : State) (core g : Nat) : Option Nat :=
  match rescueWarp s core with
  | some r => if r = g then succWalk s core g else some r
  | none => succWalk s core g

def Warp.takeBaton (w : Warp) (slot busy : Nat) : Warp :=
  { w with baton := some slot, tenure := 0, age := 0, idle := 0, slipDue := false, busy := busy, slotUse := if busy = 0 then .none else .moved }
def Warp.dropBaton (w : Warp) : Warp := { w with baton := none, tenure := 0, idle := 0 }

/-- R145: the giver's scratchpad and tile writes are accepted before anything the receiver does: they come next (log 14). -/
def acceptNext (s : State) (w : Warp) : State :=
  w.ops.foldl (fun s o =>
    match o.k with
    | .twrite _ _ => if o.done then s else s.post .tileWriteAccept { warp := w.key, op := o.id }
    | .store | .rmw _ _ | .bar _ | .stcon _ _ =>
      if o.sp && !o.done then
        (List.range o.accs.length).foldl (fun s i =>
          if (o.accs.getD i ⟨0, 0, 0, 0, 0, 0, 0, false, 0, 0, none, false, none, false, 0⟩).applied then s
          else s.post .writeApply { warp := w.key, op := o.id, unit := i }) s
      else s
    | _ => s) s

/-- A transfer: the baton of slot k goes from one warp of the core to another; the slot issues nothing in the next cycle (R27). -/
def transfer (s : State) (core giver taker : Nat) : State :=
  match s.warp? (32 * core + giver) with
  | none => s
  | some g =>
    match g.baton with
    | none => s
    | some k =>
      acceptNext ((s.setWarp (32 * core + giver) g.dropBaton.clearRes).modWarp (32 * core + taker) fun w => w.takeBaton k 2) g

/-- R41: a baton nobody can take is retired, or waits UNHELD for a halted or stopped candidate. -/
def retireBaton (s : State) (core g : Nat) : State :=
  match s.warp? (32 * core + g) with
  | none => s
  | some w =>
    match w.baton with
    | none => s
    | some k =>
      let unheld := walkMetStopped s core g w.id.nwarps w.walkFs
      let s := s.setWarp (32 * core + g) w.dropBaton
      if unheld then s.modCore core fun c => { c with unheld := c.unheld.put k g } else s

/-- R39, R40: at an exit or a fault the baton goes to the end of the successor walk. -/
def giveUp (s : State) (core g : Nat) : State :=
  match succWalk s core g with
  | some n => transfer s core g n
  | none => retireBaton s core g

/-- R41: an UNHELD baton is given out again at a release; what its giver wrote comes first (R145). -/
def regive (s : State) (core : Nat) : State :=
  (s.core core).unheld.foldl (fun s e =>
    match s.warp? (32 * core + e.2) with
    | none => s
    | some g =>
      match walkGo s core e.2 g.id.nwarps g.walkFs with
      | some n =>
        acceptNext ((s.modCore core fun c => { c with unheld := c.unheld.del e.1 }).modWarp (32 * core + n) fun w => w.takeBaton e.1 2) g
      | none =>
        if walkMetStopped s core e.2 g.id.nwarps g.walkFs then s
        else s.modCore core fun c => { c with unheld := c.unheld.del e.1 }) s

/-! ## Synchronisation (R256, R257) -/

def syncGen (s : State) (w : Warp) : Scope → Nat
  | .b => ((s.core w.core).block.elim 0 fun b => b.gen)
  | .g => (s.gang w.id.lid w.id.gang).gen
  | .d => (s.launch w.id.lid).gen

def arrivedAt (sc : Scope) (g : Nat) (w : Warp) : Bool :=
  w.life != .live || w.arrive == some { scope := sc, gen := g }
/-- A block's barrier opens once every live warp has arrived and one at least. -/
def openB (s : State) (w : Warp) : State :=
  let ws := s.blockWarps w.core
  let g := syncGen s w .b
  if ws.all (arrivedAt .b g) && ws.any (fun x => x.life == .live) then
    s.modCore w.core fun c => { c with block := c.block.map fun b => { b with gen := b.gen + 1 } }
  else s
/-- A gang's barrier counts blocks that have not started whole (R23). -/
def openG (s : State) (w : Warp) : State :=
  let ws := s.gangWarps w.id.lid w.id.gang
  let x := s.gang w.id.lid w.id.gang
  if x.started = w.id.nblocks ∧ ws.all (arrivedAt .g x.gen) ∧ ws.any (fun y => y.life == .live) then
    s.modGang w.id.lid w.id.gang fun x => { x with gen := x.gen + 1 }
  else s
/-- The launch's barrier counts every gang of the launch; every peer package reports its arrivals, once a generation (R256). A
launch without a table runs on one die. -/
def openD (s : State) (w : Warp) : State :=
  let l := s.launch w.id.lid
  let ws := s.allWarps.filter fun x => x.id.lid == w.id.lid
  let here := s.gangs.vals.filter fun g => g.lid == w.id.lid
  let mine := l.ranks.filter fun r => r.pkg == s.io.ident.furid
  let ours := if l.ranks.isEmpty then l.id.ngangs else (mine.map RankEnt.gcount).sum
  let peers := ((l.ranks.filter fun r => r.pkg != s.io.ident.furid).map RankEnt.pkg).eraseDups.length
  let allStarted := decide (here.length = ours) && here.all fun g => g.started == w.id.nblocks || g.ended.isSome
  if allStarted ∧ (l.gen + 1) * peers ≤ l.arrivedPeers then
    (if ws.all (arrivedAt .d l.gen) ∧ ws.any (fun y => y.life == .live) then
      s.modLaunch w.id.lid fun l => { l with gen := l.gen + 1 } else s)
  else s
def openSyncs (s : State) (w : Warp) : State := openD (openG (openB s w) w) w

/-! ## Ending warps and gangs -/

/-- R43, R64, R90: what an ended warp leaves behind, its baton apart. -/
def afterEnd (s : State) (w : Warp) : State :=
  openSyncs ((withdrawAll s w.key).orphanNames w) w

/-- R40, R64: the warp becomes FAULTED; its baton goes at the end of the cycle, after the passes of the cycle (R28). -/
def becomeFaulted (s : State) (k : Nat) : State :=
  match s.warp? k with
  | none => s
  | some w =>
    let s := withdrawAll s k
    match s.warp? k with
    | none => s
    | some w' =>
      let w' := { w'.spillAll.clearRes with
        life := .faulted, entry := none, inv := none, arrive := none, wait := .none,
        forced := if w'.holding then some .fault else none, stalled := false }
      let s := s.setWarp k w'
      afterEnd (s.modLaunch w.id.lid fun l => { l with fault := true }) w'

/-- R332, R343: stops every other warp of the gang at its next instruction boundary; one in S mode stops at its TRET. -/
def haltGang (s : State) (lid : Word) (g : Nat) (but : Option Nat) : State :=
  let s := s.modGang lid g fun x => { x with halted := true }
  (s.gangWarps lid g).foldl (fun s w =>
    if some w.key = but ∨ w.life ≠ .live then s
    else if w.smode then s.modWarp w.key fun x => { x with haltReq := true }
    else (withdrawAll s w.key).modWarp w.key fun x => { x with halted := true, wasParked := x.wasParked || w.park.isSome }) s
/-- R332, R41: lets the halted warps go on, and gives UNHELD batons out again. -/
def resumeGang (s : State) (lid : Word) (g : Nat) : State :=
  let s := s.modGang lid g fun x => { x with halted := false }
  let ws := s.gangWarps lid g
  let s := ws.foldl (fun s w => s.modWarp w.key fun x => { x with halted := false, haltReq := false }) s
  (ws.map Warp.core).eraseDups.foldl regive s

/-- R331, R344: ends a gang: every warp EXITED, batons retire, and a launch barrier no longer waits for it (R256); status 2 ABORTED,
3 DOUBLE. -/
def endGang (s : State) (lid : Word) (g status : Nat) : State :=
  let s := (s.gangWarps lid g).foldl (fun s w =>
    let s := withdrawAll s w.key
    let s := s.modWarp w.key fun x => { x with
      life := .exited, baton := none, tenure := 0, ldr := none, disp := [], active := false, entry := none,
      inv := none, arrive := none, wait := .none, halted := false, haltReq := false, perched := false, forced := none, stalled := false,
      vregs := [], sregs := [], resV := 0, resS := 0, owed := none }
    s.orphanNames w) s
  let s := s.modGang lid g fun x => { x with halted := true, ended := some status }
  let s := s.modLaunch lid fun l => if status = 3 then { l with double := true } else { l with aborted := true }
  match (s.gangWarps lid g).head? with
  | some w => openD s w
  | none => s

/-! ## Taking a trap (R9, R40, R320, R321, R340 to R344) -/

/-- TPC of a trap at the acting warp: the INV for a trap inside one (R281), else the instruction. -/
def trapPc (w : Warp) (t : TrapInfo) : Nat :=
  match t.tpc with
  | some a => a
  | none => match w.inv with
    | some r => r.pc
    | none => w.p.pc
/-- INNERPC: the routine's instruction for a trap inside an INV (R281). -/
def innerPc (w : Warp) (t : TrapInfo) : Nat := t.inner.getD (if w.inv.isSome then w.p.pc else 0)
def trapExec (w : Warp) (t : TrapInfo) : Word :=
  match t.exec with
  | some e => e
  | none => match w.inv with
    | some r => r.exec0
    | none => w.p.exec

/-- R321: the 16 words of the user frame. -/
def userFrame (w : Warp) (t : TrapInfo) : List Word :=
  [BitVec.ofNat 64 (t.code + 256 * t.sub), BitVec.ofNat 64 (trapPc w t), BitVec.ofNat 64 (innerPc w t),
   BitVec.ofNat 64 t.taddr, t.tmask, trapExec w t, BitVec.ofNat 64 t.arg,
   BitVec.ofNat 64 (t.cls + 2 ^ 32 * t.index), BitVec.ofNat 64 t.site, t.remain] ++ List.replicate 6 0

/-- R342: RESUME, and the header of the block whose body holds it, or 0. -/
def resumeAt (w : Warp) (t : TrapInfo) (ilen : Nat) : Nat × Nat :=
  let hdr := match w.inv with
    | some r => r.hdr
    | none => w.p.hdr
  let pc := trapPc w t
  if t.next then
    (let n := pc + ilen
     (n, if Hdr.endAddr hdr ≤ n then 0 else hdr.addr))
  else (pc, if t.tpc.isSome then t.rhdr else if w.p.atHdr && w.inv.isNone then 0 else hdr.addr)

/-- R342: which of s1, s2, s3 and s126 are unmapped. -/
def unmapBits (w : Warp) : Nat :=
  (if w.sregs.has 1 then 0 else 1) + (if w.sregs.has 2 then 0 else 2) + (if w.sregs.has 3 then 0 else 4)
    + (if w.sregs.has 126 then 0 else 8)

/-- R342: the system frame, 32 words. -/
def systemFrame (s : State) (w : Warp) (t : TrapInfo) (action ilen : Nat) : List Word :=
  let r := resumeAt w t ilen
  userFrame w t ++
  [BitVec.ofNat 64 (action * 2 ^ 56 + w.smode.toNat * 256 + (w.baton.getD 255)),
   BitVec.ofNat 64 r.1, BitVec.ofNat 64 s.now,
   BitVec.ofNat 64 (w.id.gang * 2 ^ 32 + w.id.block * 256 + w.idx), BitVec.ofNat 64 w.pid,
   w.rdS 1, w.rdS 2, w.rdS 3, w.rdS 126, BitVec.ofNat 64 (s.core w.core).left,
   BitVec.ofNat 64 r.2, BitVec.ofNat 64 t.shdr, BitVec.ofNat 64 (unmapBits w)] ++ List.replicate 3 0

/-- R313, R321: where the user frame lies. -/
def userFrameAddr (w : Warp) : Nat :=
  w.id.spillbase + ((8 * w.id.gang + w.id.block) * 32 + w.idx) * (1024 * w.W + 2048) + 1024 * w.W + 1024
/-- R328: where the system frame lies. -/
def systemFrameAddr (s : State) (w : Warp) : Nat := (s.core w.core).tframe + 256 * w.idx

/-- Scalars an entry maps beyond LIVES: s1 and s126 where they are unmapped (R321). -/
def extraS (w : Warp) : Nat := (if w.sregs.has 1 then 0 else 1) + (if w.sregs.has 126 then 0 else 1)

/-- R321, R341: the reservation is granted: s1 := frame, s126 := 0, and the warp transfers to the handler. -/
def finishEntry (w : Warp) (e : HEntry) : Warp :=
  let w := { w with resV := e.reqV, resS := e.reqS, entry := none, wait := .none }
  let w := w.markEntry
  let w := (w.wrS 1 (BitVec.ofNat 64 e.frame)).wrS 126 0
  { w with owed := none, p := { w.p with pc := e.target, atHdr := true, settled := true } }

/-- A handler entry: exec becomes the path's lane set, and the reservation is requested; a class that is asked for less falls at once
(R60, R321, R341). -/
def enterHandler (s : State) (frame target : Nat) (hdr : Word) : State :=
  let w := { s.w with
    inv := none, owed := none,
    p := { s.w.p with exec := s.w.p.lanes, stage := none, settled := false } }
  let r := w.request hdr Hdr.liveV Hdr.liveS (extraS w)
  let e : HEntry := ⟨frame, target, r.1, r.2⟩
  if fits s w r then { s with w := { finishEntry w e with stalled := false } }
  else { s with w := { w with entry := some e, wait := .header, resV := min w.resV r.1, resS := min w.resS r.2 } }

/-- A header that an entry may target: an ENTRY header, fetched in the mode it will run in; else the code of the trap its
fetch or its form raises (R175). -/
def entryHeader (s : State) (w : Warp) (a : Nat) : Except Nat Word :=
  match headerAt s w a with
  | .error c => .error c
  | .ok (some h) => if Hdr.entry h then .ok h else .error 2
  | .ok none => .error 2

/-- R344: firmware halts the gang, aborts its operations, records it and ends it with status DOUBLE. `frame` is the first
trap's frame. A record has 15 words for the frame's 16 and the second trap's code, subcode and address; the last four of the
frame, which the hardware writes as zero, are left out (log 41). -/
def doubleFault (s : State) (frame : List Nat) (t : TrapInfo) : State :=
  let w := s.w
  let s := haltGang s w.id.lid w.id.gang none
  let s := (s.gangWarps w.id.lid w.id.gang).foldl (fun s x => abortWarp s x.key) s
  let s := journal s 8 w.id.part w.id.vdev (((List.range 12).map fun i => frame.getD i 0) ++ [t.code, t.sub, t.taddr])
  endGang s w.id.lid w.id.gang 3
/-- The first 128 bytes of the warp's frame as they stand in memory. -/
def frameNow (s : State) (w : Warp) : List Nat :=
  match readWords s { w with smode := true } .load (systemFrameAddr s w) 16 with
  | .ok l => l.map BitVec.toNat
  | .error _ => []

/-- R341: entry to the partition supervisor: the frame first, then the header at TVEC. A fault while the frame is written, or a
TVEC that is no ENTRY header, is the second trap of a double fault (R344). -/
def enterSupervisor (s : State) (t : TrapInfo) (action : Nat) : State :=
  let w := s.w
  let tvec := (s.part w.id.part).tvec / 2 * 2
  let ws := { w with smode := true }
  let frame := systemFrameAddr s w
  let words := systemFrame s w t action s.ilen
  match writeWords s ws frame words with
  | .error c => doubleFault s (words.map BitVec.toNat) { code := c, taddr := frame }
  | .ok s1 =>
    match entryHeader s1 ws tvec with
    | .error c => doubleFault s1 (words.map BitVec.toNat) { code := c, taddr := tvec }
    | .ok h =>
      let held := w.owed.getD (w.resV, w.resS)
      let w1 := { s1.w with
        active := true, ppm := w.smode, smode := true, tcode := t.code, tsub := t.sub, taddr := t.taddr,
        tmask := t.tmask, tpc := trapPc w t, trapV := held.1, trapS := held.2,
        keptSite := if t.code = 0x20 ∨ t.code = 0x21 then w.lastSite else none,
        keptEntry := w.entry, entry := none }
      enterHandler { s1 with w := w1 } frame tvec h

/-- R40, R340: a trap that the user handler does not take. -/
def byPolicy (s : State) (t : TrapInfo) : State :=
  if s.w.id.abort then
    (if (s.part s.w.id.part).tvec / 2 = 0 then
      endGang (haltGang s s.w.id.lid s.w.id.gang none) s.w.id.lid s.w.id.gang 2
     else enterSupervisor s t 1)
  else becomeFaulted s s.w.key

/-- R320: codes that go to the user handler. -/
def userCode (c : Nat) : Bool := decide (1 ≤ c) && decide (c ≤ 0x0F)
/-- R340: codes that always go to the supervisor. -/
def supervisorCode (c : Nat) : Bool := c == 0x10 || c == 0x20 || c == 0x21 || c == 0x22 || c == 0x30 || c == 0x31

/-- R345, R346, R396: the record and the count of one detection of an uncorrectable error, at a warp or at its command: physical address,
unit, virtual address, kind of access (log 48). -/
def memErr (s : State) (w : Warp) (pa unit va kind : Nat) : State :=
  journal (s.countOn w.id.vdev w.cluster 13) 0xB w.id.part w.id.vdev [pa, unit, w.id.part, va, kind]
/-- The physical address a virtual one of the warp has now; 0 for none. -/
def physOf (s : State) (w : Warp) (va : Nat) : Nat :=
  match lookup s (s.part w.id.part) w.die va with
  | .leaf e level => ptePA e + va % levelSize level
  | _ => 0
/-- R382, R345: what a firewall violation or an uncorrectable read leaves in registers and journal, besides the trap. A consumption is
detected by the core, a fetch or a page walk at the memory. -/
def recordTrap (s : State) (t : TrapInfo) : State :=
  let pa := if t.taddr = 0 then 0 else physOf s s.w t.taddr
  if t.code = 0x30 then violation s s.w.id.part s.w.id.vdev (pa / 2 ^ 37) pa 0
  else if t.code = 0x22 then memErr s s.w pa (if t.used then 2 else 0) t.taddr (if t.used then 0 else 1)
  else s

/-- R9, R70: an instruction that traps after its element reads started leaves the ports where they stood. -/
def Warp.unstage (w : Warp) : Warp :=
  match w.p.stage with
  | none => w
  | some st => { w with
      sds := st.pos0.foldl (fun l e => putAt {} l e.1 { l.getD e.1 {} with pos := e.2 }) w.sds,
      exh := w.exh &&& ~~~st.exh0,
      p := { w.p with stage := none } }

/-- R281: inside an INV the warp stands again as at the last boundary: registers, masks, brackets, ports and flags; what the
routine's outstanding operations bring reaches no register. Registers spilled since stay spilled (log 25). -/
def Warp.invUndo (w : Warp) : Warp :=
  match w.inv with
  | none => w
  | some r =>
    let x := r.snap
    let w1 := { w with
      vregs := x.vregs.mapVals fun i v => { v with spilled := v.spilled || (w.vregs.get? i).any VReg.spilled },
      sregs := x.sregs.mapVals fun i v => { v with spilled := v.spilled || (w.sregs.get? i).any SReg.spilled },
      masks := x.masks, brk := x.brk, sds := x.sds, exh := x.exh, fpstat := x.fpstat,
      ops := w.ops.map fun (o : Op) => if x.opNext ≤ o.id then { o with dst := .none } else { o with left := o.left0 } }
    { w1 with resV := max w.resV w1.mappedV, resS := max w.resS w1.mappedS }

/-- What a trap leaves of its instruction, before it goes to its handler: no effect (R9), nothing recorded elsewhere. -/
def trapState (s : State) (t : TrapInfo) : State :=
  let s := trace (recordTrap (s.count 8) t) s.w 4 t.code t.sub t.tmask.toNat
  let s := s.setW { s.w.unstage.invUndo with stalled := false, pendSync := none }
  withdrawHere s s.w.key
/-- Taking a trap at the acting warp: it goes where R320 and R340 send it. -/
def takeTrap (s : State) (t : TrapInfo) : State :=
  let s := trapState s t
  if s.w.active then doubleFault s (frameNow s s.w) t
  else if supervisorCode t.code then enterSupervisor s t (if t.code = 0x20 then 3 else 0)
  else if userCode t.code && s.w.id.handler != 0 && !s.w.p.inH then
    match entryHeader s s.w s.w.id.handler with
    | .error _ => byPolicy s t
    | .ok h =>
      match writeWords s s.w (userFrameAddr s.w) (userFrame s.w t) with
      | .error _ => byPolicy s t
      | .ok s1 => enterHandler { s1 with w := { s1.w with p := { s1.w.p with inH := true } } } (userFrameAddr s.w) s.w.id.handler h
  else byPolicy s t

/-- A warp that is to run a handler: no stop holds it back (R332, R353). -/
def toHandler (w : Warp) : Warp :=
  { w with stopped := false, stopReq := false, halted := false, perched := false, perchReq := w.perchReq || w.perched,
           haltReq := w.haltReq || w.halted }
/-- The outcome of an instruction that raises a trap. -/
def trap (s : State) (t : TrapInfo) : Out := .next (takeTrap s t)
/-- R190, R191: the illegal-instruction fault with its subcode. -/
def illegal (s : State) (sub : Nat) : Out := trap s { code := 1, sub := sub }

/-! ## Returning from a supervisor trap (R331) -/

def restoreS (w : Warp) (r : SIdx) (unmap : Bool) (v : Word) : Warp :=
  if unmap then (if w.pendingS r then w.wrS r 0 else w).freeS r else w.wrS r v

/-- R331: ACTION 0: the frame's PC and block, and the reservation held at the trap. -/
def resumeWarp (w : Warp) (pc : Nat) (blk : Nat) (hdr : Word) (exec : Word) : Warp :=
  { w with
    p := { w.p with pc := pc, exec := exec &&& w.p.lanes, atHdr := decide (blk = 0), settled := false, hdr := if blk = 0 then w.p.hdr else ⟨blk, hdr⟩ },
    wait := .none }

/-! ## Issue outcomes -/

/-- The next instruction cannot issue (R34). -/
def stall (s : State) (r : Wait) : Out := .next { s with w := { s.w with wait := r, stalled := true } }

/-- The instruction has issued: operation class c of R368 charged n times, the program counter past it. -/
def finish (s : State) (c n : Nat) : Out :=
  let s := charge s s.w.id.vdev s.w.die c (if c = 0 then 0 else widthCode s.W) n
  let s := s.count 0
  .next { s with w := s.w.advance s.ilen, freeCtr := s.freeCtr + 1 }

/-- A scalar, mask or control instruction issues once (R20). -/
def finishS (s : State) : Out := finish s 0 1
/-- R20: beats of a vector instruction. -/
def beats (s : State) : Nat := s.W / 16
/-- A vector instruction occupies its slot for its beats (R20). -/
def finishV (s : State) (c : Nat) : Out := finish { s with w := { s.w with busy := beats s } } c (beats s)

/-- A taken transfer: the target is a header position (R173); taken branches, CALL and RET clear LastSite (R214). -/
def goTo (s : State) (target : Nat) : Out :=
  let s := charge s s.w.id.vdev s.w.die 0 0 1
  let s := trace (s.count 0) s.w 7 target 0 0
  .next { s with
    w := { s.w with
      p := { s.w.p with pc := target, atHdr := true, settled := false },
      lastSite := none, win := s.w.win - 1, wait := .none, stalled := false },
    freeCtr := s.freeCtr + 1 }

end Sys2Proof.Machine
end

