-- ==== Sys2Proof/Machine/Operands.lean ====
section
/-! DEFINITION. Operand forms: what an instruction reads and writes, the conditions for issue (R34, R70, R76, R242), last-use frees (R57), lane addresses and their checks (R243), stream ports (R67 to R72). -/
namespace Sys2Proof.Machine

/-- The registers an instruction reads, with the LU bit of each position, and those it writes. -/
structure Use where
  vsrc : List (VIdx × Bool) := []
  ssrc : List (SIdx × Bool) := []
  vdst : List VIdx := []
  sdst : List SIdx := []
  ms : MIdx := 0
  /-- class in which the instruction itself counts. -/
  cls : Option Cls := none
  /-- its vector sources are read in every lane whatever exec holds. -/
  allLanes : Bool := false
  /-- it does nothing when no lane is active, though it names no vector register (R239). -/
  vec : Bool := false
  /-- it never faults: a lane that would is skipped (R247). -/
  soft : Bool := false
  deriving DecidableEq, Repr

/-! ## Lane addresses (R243) -/

/-- R243: the pages of a block's scratchpad that are mapped. -/
def spMapped (s : State) (w : Warp) (off : Nat) : Bool :=
  decide (off / 4096 < (s.core w.core).block.elim 0 fun b => b.spadpg)

/-- One element: lane, 64-bit address sum, bytes. -/
abbrev Elem := Nat × Nat × Nat

/-- The access an element makes, or the code of R243 it raises. -/
def accOf (s : State) (w : Warp) (k : Want) (sp : Bool) (e : Elem) : Except Nat Acc :=
  let a := e.2.1
  if a % e.2.2 ≠ 0 then .error 0x06
  else if sp then
    (if a < 2 ^ 32 ∧ spMapped s w a then .ok { lane := e.1, va := a, addr := a, n := e.2.2 } else .error 0x04)
  else if 2 ^ 56 ≤ a then .error 0x04
  else match translate s w k a with
    | .fault c => .error c
    | .ok pa pte => .ok { lane := e.1, va := a, addr := pa, n := e.2.2, dom := pteDom pte, lease := leaseNs pte,
                          home := homeOf pte pa, uncached := decide (pteHome pte = 3) }

/-- Each element's access or code. -/
def accsOf (s : State) (w : Warp) (k : Want) (sp : Bool) (es : List Elem) : List (Except Nat Acc) :=
  if sp then es.map (accOf s w k sp) else (judge s w (fun s => accOf s w k sp) es).2

/-- R243, R375: every element is checked before any is accessed; the first code any raises, with the lanes that raise it. -/
def checkElems (s : State) (w : Warp) (k : Want) (sp : Bool) (es : List Elem) : Except TrapInfo (List Acc) :=
  let rs := accsOf s w k sp es
  match [0x06, 0x04, 0x05, 0x30, 0x22].find? fun c => rs.any (raises c) with
  | some c =>
    let bad := ((es.zip rs).filter fun x => raises c x.2).map Prod.fst
    .error { code := c, tmask := maskOf 64 fun L => bad.any fun e => e.1 == L,
             taddr := (bad.head?.elim 0 fun e => e.2.1) % 2 ^ 56 }
  | none => .ok (rs.filterMap Except.toOption)

/-- The caches and pinned pages that accesses use (R376, R377). -/
def touch (s : State) (sp : Bool) (accs : List Acc) : State :=
  if sp then s else accs.foldl (fun s a => pinAt (fillTlb s s.w a.va) s.w a.va) s

/-- A new outstanding operation of the acting warp (R74). -/
def addOp (w : Warp) (o : Op) : Warp := { w with ops := w.ops ++ [{ o with id := w.opNext }], opNext := w.opNext + 1 }

/-- R255, R257: no later load merges into a fill issued before. -/
def closeAllFills (w : Warp) : Warp := { w with ops := w.ops.map fun o => { o with fills := [] } }

/-! ## Stream ports (R67 to R72) -/

/-- R68. -/
def esizeBytes (e : BitVec 3) : Nat := match e.toNat with
  | 0 => 1 | 1 => 1 | 2 => 2 | 3 => 2 | _ => 4
/-- R68: an element as a lane reads it. -/
def esizeRead (e : BitVec 3) (v : Nat) : Lane := match e.toNat with
  | 0 => BitVec.ofNat 32 (v % 256)
  | 1 => (BitVec.ofNat 8 v).signExtend 32
  | 2 => BitVec.ofNat 32 (v % 65536)
  | 3 => (BitVec.ofNat 16 v).signExtend 32
  | _ => BitVec.ofNat 32 v
/-- R70, R71: address of element i, as a 64-bit sum. -/
def elemAddr (d : SDesc) (i : Nat) : Nat :=
  (d.base + BitVec.ofInt 64 (d.stride.toInt * (i : Int))).toNat
/-- The elements of active lanes below COUNT; indices do not wrap (R70). -/
def portElems (W : Nat) (d : SDesc) (m : Word) : List Elem :=
  ((List.range W).filter fun L => m.getLsbD L && decide (d.pos.toNat + L < d.count.toNat)).map fun L =>
    (L, elemAddr d (d.pos.toNat + L), esizeBytes d.esize)
/-- Some active lane lies at or beyond COUNT. -/
def exhausts (W : Nat) (d : SDesc) (m : Word) : Bool :=
  (List.range W).any fun L => m.getLsbD L && decide (d.count.toNat ≤ d.pos.toNat + L)
/-- POS moves on by W whatever the mask; exhaustion is sticky (R47, R70). -/
def bumpPort (w : Warp) (p : Nat) (m : Word) : Warp :=
  let d := w.sd p
  { w with
    sds := putAt {} w.sds p { d with pos := d.pos + BitVec.ofNat 32 w.W },
    exh := if exhausts w.W d m then w.exh ||| (1#8 <<< p) else w.exh }

/-- R70, step 1: the element reads an instruction starts when it first reaches issue, for the active lanes of every port it
names: one ld operation for them all (log 42). -/
def startStage (s : State) (ports : List Nat) (m : Word) (soft : Bool) : Except TrapInfo State :=
  let w := s.w
  let es := ports.flatMap fun p => (portElems w.W (w.sd p) m).map fun e => (p, e)
  let es := if soft then ((es.zip (accsOf s w .load false (es.map Prod.snd))).filter fun x => x.2.toOption.isSome).map Prod.fst else es
  match checkElems s w .load false (es.map Prod.snd) with
  | .error t => .error t
  | .ok accs =>
    let accs := (accs.zip es).map fun x => { x.1 with data := x.2.1, data2 := (w.sd x.2.1).esize.toNat }
    let wb := ports.foldl (fun w p => bumpPort w p m) w
    let st : Stage := ⟨w.p.pc, w.opNext, accs.isEmpty, ports.map fun p => (p, List.replicate w.W 0, []),
      ports.map fun p => (p, (w.sd p).pos), wb.exh &&& ~~~w.exh⟩
    let w1 := { wb with p := { wb.p with stage := some st } }
    let w2 := if accs.isEmpty then w1
      else addOp w1 { id := 0, cls := .ld, k := .stream 0, accs := accs, dst := .stage, pc := w.p.pc }
    .ok { touch s false accs with w := w2 }

/-- R71: appends W elements to a write port: one store per active lane below COUNT, counted in st. -/
def appendPort (s sf : State) (p : Nat) (m : Word) (f : Nat → Lane) : Except TrapInfo State :=
  let d := s.w.sd p
  match checkElems s s.w .store false (portElems s.W d m) with
  | .error t => .error t
  | .ok accs =>
    let accs := accs.map fun a => { a with data := (f a.lane).toNat % 256 ^ a.n }
    let w1 := bumpPort sf.w p m
    let w2 := if accs.isEmpty then w1
      else addOp w1 { id := 0, cls := .st, k := .store, accs := accs, pc := s.w.p.pc }
    .ok { touch sf false accs with w := w2 }

/-! ## The conditions for issue -/

def readPorts (w : Warp) (u : Use) : List Nat := (u.vsrc.filterMap fun r => w.portOf r.1).eraseDups
def writePorts (w : Warp) (u : Use) : List Nat := (u.vdst.filterMap fun r => w.portOf r).eraseDups

/-- R72, R47: a port named in the direction it is not bound for. -/
def wrongWay (w : Warp) (u : Use) : Bool :=
  (readPorts w u).any (fun p => (w.sd p).dir) || (writePorts w u).any (fun p => !(w.sd p).dir)

/-- R34, R242, R30: a source register that waits for an outstanding operation, or a PASS status not readable yet. A destination does not
wait (log 7). -/
def regWait (w : Warp) (u : Use) : Bool :=
  u.vsrc.any (fun r => (w.portOf r.1).isNone && w.pendingV r.1) || u.ssrc.any (fun r => w.pendingS r.1) ||
  w.passHold.any fun h => u.ssrc.any fun r => r.1 == h.1
/-- A destination that an older operation is still to write. -/
def writesPending (w : Warp) (u : Use) : Bool :=
  u.vdst.any (fun r => (w.portOf r).isNone && w.pendingV r) || u.sdst.any w.pendingS

/-- R47, R218, R242: an instruction that does nothing here, since no lane is active. -/
def idleUse (w : Warp) (u : Use) : Bool :=
  (u.vec || (!u.allLanes && !(u.vsrc.isEmpty && u.vdst.isEmpty))) && w.activeMask u.ms == 0
/-- R76: a counter the instruction would raise stands at 63. -/
def counterFull (w : Warp) (u : Use) : Bool :=
  !idleUse w u &&
  ((match u.cls with
   | some c => decide (Config.counterMax ≤ w.cnt c)
   | none => false) ||
  (!(readPorts w u).isEmpty && w.p.stage.isNone && decide (Config.counterMax ≤ w.cnt .ld)) ||
  (!(writePorts w u).isEmpty && decide (Config.counterMax ≤ w.cnt .st)))

def useMask (w : Warp) (u : Use) : Word := if u.allLanes then Machine.allLanes w.W else w.activeMask u.ms

/-- R345: lanes of a source that hold poisoned data, with the addresses it came from. -/
def poisonOf (w : Warp) (r : VIdx) : List (Nat × Nat) :=
  match w.portOf r with
  | some p => match w.p.stage with
    | some st => match st.ports.find? fun e => e.1 == p with
      | some e => e.2.2
      | none => []
    | none => []
  | none => (w.vregs.get? r.toNat).elim [] fun x => x.poison

/-- R345: consuming poisoned data: the trap, if a vector source holds it in an active lane, or a scalar source of an instruction
that does something. -/
def poisonTrap (w : Warp) (u : Use) : Option TrapInfo :=
  if u.soft || idleUse w u then none
  else
  let m := useMask w u
  let bad := (u.vsrc.flatMap fun r => poisonOf w r.1).filter fun e => m.getLsbD e.1
  let sbad := u.ssrc.filterMap fun r => (w.sregs.get? r.1.toNat).bind fun x => x.poison
  if bad.isEmpty then
    match sbad with
    | a :: _ => some { code := 0x22, taddr := a, used := true }
    | [] => none
  else
    let mask := maskOf 64 fun L => bad.any fun e => e.1 == L
    let low := bad.foldl (fun b e => if e.1 < b.1 then e else b) (64, 0)
    some { code := 0x22, tmask := mask, taddr := low.2, used := true }

/-- R63: spilled sources refill. -/
def Warp.refillVs (w : Warp) (l : List (VIdx × Bool)) : Warp :=
  if w.vregs.any fun e => e.2.spilled then l.foldl (fun w r => w.refillV r.1) w else w
def Warp.refillSs (w : Warp) (l : List (SIdx × Bool)) : Warp :=
  if w.sregs.any fun e => e.2.spilled then l.foldl (fun w r => w.refillS r.1) w else w
/-- R57: sources marked last use are freed. -/
def Warp.freeVs (w : Warp) (l : List (VIdx × Bool)) : Warp := l.foldl (fun w r => if r.2 then w.freeV r.1 else w) w
def Warp.freeSs (w : Warp) (l : List (SIdx × Bool)) : Warp := l.foldl (fun w r => if r.2 then w.freeS r.1 else w) w
/-- R70: the staged elements have been consumed. -/
def Warp.dropStage (w : Warp) : Warp := { w with p := { w.p with stage := none } }
/-- R57, R63, R70: what issuing does to the sources: spilled ones refill, LU bits free, staged elements are consumed. -/
def freeUse (w : Warp) (u : Use) : Warp :=
  let w := (((w.refillVs u.vsrc).refillSs u.ssrc).freeVs u.vsrc).freeSs u.ssrc
  if (readPorts w u).isEmpty then w else w.dropStage

/-- Destinations a write would map: none in a vector register when no lane is active (R47). -/
def liveDst (w : Warp) (u : Use) : List VIdx := if useMask w u = 0 then [] else u.vdst

/-- The last checks of issue and then the effect: `k` gets the state to read from and the state to write to. -/
def gateLast (u : Use) (s : State) (k : State → State → Out) : Out :=
  match poisonTrap s.w u with
  | some t => trap s t
  | none =>
    let wf := freeUse s.w u
    if wf.overLive (liveDst s.w u) u.sdst then illegal s 0x08
    else k s { s with w := wf }

/-- The conditions every instruction meets before it issues; otherwise it waits, or traps. -/
def gate (u : Use) (s : State) (k : State → State → Out) : Out :=
  if wrongWay s.w u then trap s { code := 0x0C }
  else if regWait s.w u then stall s .reg
  else if counterFull s.w u then stall s .full
  else if (readPorts s.w u).isEmpty then gateLast u s k
  else match s.w.p.stage with
    | some st => if st.arrived then gateLast u s k else stall s .stream
    | none =>
      match startStage s (readPorts s.w u) (useMask s.w u) u.soft with
      | .error t => trap s t
      | .ok s' =>
        match s'.w.p.stage with
        | some st => if st.arrived then gateLast u s' k else stall s' .stream
        | none => stall s' .stream

/-! ## Writing results -/

/-- A vector result: to the active lanes of a register (R58), or appended to a port (R71). -/
def vwrite (s sf : State) (d : VIdx) (m : Word) (f : Nat → Lane) (k : State → Out) : Out :=
  match s.w.portOf d with
  | none => if m = 0 then k sf else k { sf with w := sf.w.wrV d m f }
  | some p =>
    match appendPort s sf p m f with
    | .error t => trap s t
    | .ok s' => k s'

/-- The LU bit of positions A, B and C (R178). -/
def luA (c : Ctl) : Bool := c.lu.getLsbD 2
def luB (c : Ctl) : Bool := c.lu.getLsbD 1
def luC (c : Ctl) : Bool := c.lu.getLsbD 0

/-- A scalar instruction: reads `ss`, writes `f` of the state to one scalar. -/
def sop (ss : List (SIdx × Bool)) (d : SIdx) (f : Warp → Word) (s : State) : Out :=
  gate { ssrc := ss, sdst := [d] } s fun s sf => finishS { sf with w := sf.w.wrS d (f s.w) }

/-- A mask instruction that writes a mask. -/
def mop (ss : List (SIdx × Bool)) (d : MIdx) (f : Warp → Word) (s : State) : Out :=
  gate { ssrc := ss } s fun s sf => finishS { sf with w := sf.w.wrM d (f s.w) }

/-- A vector instruction of charge class c: in each active lane L, `f` of the state and L, to one vector register. -/
def vop (c : Nat) (vs : List (VIdx × Bool)) (d : VIdx) (ms : MIdx) (f : Warp → Nat → Lane) (s : State) : Out :=
  gate { vsrc := vs, vdst := [d], ms := ms } s fun s sf =>
    vwrite s sf d (s.w.activeMask ms) (f s.w) fun s' => finishV s' c

end Sys2Proof.Machine
end

