-- ==== Sys2Proof/Machine/Transfer.lean ====
section
/-! DEFINITION. Transfers of control: the check of a target header (R175), the class tables and the serving of a dispatch's groups (spec/09 R212, R213), the path table (R50, R215 to R217), and a Perch stop (R408). -/
namespace Sys2Proof.Machine

/-- R175: the target of a C-format instruction, from the header of its block. -/
def cTarget (w : Warp) (off : BitVec 32) : Nat := (BitVec.ofInt 64 ((w.p.hdr.addr : Int) + 2 * off.toInt)).toNat
/-- The address after the body of the block in force (R210). -/
def bodyEnd (w : Warp) : Nat := Hdr.endAddr w.p.hdr

/-- R175: what is wrong with a target: it does not translate, is no header, lacks ENTRY, or has another class. -/
def targetBad (s : State) (a : Nat) (entry : Bool) (cls : Option (BitVec 8)) : Option TrapInfo :=
  match headerAt s s.w a with
  | .error c => some { code := c, taddr := a / 2 * 2 % 2 ^ 56 }
  | .ok none => some { code := 2, taddr := a / 2 * 2 % 2 ^ 56 }
  | .ok (some h) =>
    if (entry && !Hdr.entry h) || cls.any (fun c => c != Hdr.cls h) then some { code := 2, taddr := a / 2 * 2 % 2 ^ 56 } else none

/-- A move of the program counter to a header position that is no taken branch: LastSite stays (R214). -/
def hop (s : State) (target : Nat) : Out :=
  let s := charge (s.count 0) s.w.id.vdev s.w.die 0 0 1
  .next { s with
    w := { s.w with
      p := { s.w.p with pc := target / 2 * 2, atHdr := true, settled := false }, win := s.w.win - 1, wait := .none, stalled := false },
    freeCtr := s.freeCtr + 1 }

/-- A transfer in the C format: to the header it targets, or the trap of R175. `sf` is the state to write to. -/
def jump (s sf : State) (target : Nat) (entry : Bool) : Out :=
  match targetBad s target entry none with
  | some t => trap s t
  | none => goTo sf (target / 2 * 2)

/-! ## Indirect calls (R212, R213, R316) -/

/-- R316: base and length of a class's table; a class beyond CLASSN has length 0. -/
def classTable (s : State) (c : Nat) : Except Nat (Nat × Nat) :=
  if s.w.id.classn ≤ c then .ok (0, 0)
  else
    let e := s.w.id.classdir + 16 * c
    match readVirt s s.w .load e 8, readVirt s s.w .load (e + 8) 4 with
    | .ok b, .ok n => .ok (b % 2 ^ 56, n)
    | .error c, _ => .error c
    | _, .error c => .error c

/-- The warp has issued a write of bytes in [a, a + n) that its home has not applied yet. -/
def ownWrite (w : Warp) (sp : Bool) (a n : Nat) : Bool :=
  w.ops.any fun o => !o.done && o.sp == sp && o.accs.any fun x =>
    !x.applied && decide (x.addr < a + n) && decide (a < x.addr + x.n) &&
    (match o.k with
     | .store | .stcon _ _ | .rmw _ _ | .bar _ => true
     | _ => false)

/-- The table words of some lanes: lane and code address, bit 0 ignored (R172, R212). -/
def tableWords (s : State) (accs : List Acc) : List (Nat × Nat) :=
  accs.map fun a => (a.lane, readPhys s a.dom a.addr 8 % 2 ^ 56 / 2 * 2)

/-- R213: a fault of a serve names the CALLI and holds the exec from before it. -/
def dispTrap (s : State) (d : Disp) (t : TrapInfo) : Out :=
  trap s { t with tpc := some d.site, rhdr := d.hdr.addr, exec := some d.exec0 }

/-- Serves the group of the lowest lane of d.rem (R212): `pend` tells that d is the top entry already.
The states differ in what the issue of a CALLI has freed. -/
def serve (s sf : State) (d : Disp) (pend : Bool) : Out :=
  let c := d.cls.toNat
  let rem := (List.range s.W).filter fun L => d.rem.getLsbD L
  match classTable s c with
  | .error k => dispTrap s d { code := k, tmask := d.rem, taddr := (s.w.id.classdir + 16 * c) % 2 ^ 56 }
  | .ok (base, len) =>
    let sf := if c < s.w.id.classn then pinRange sf s.w (s.w.id.classdir + 16 * c) 12 else sf
    let idx := fun L => (d.va.getD L 0).toNat
    if rem.any fun L => decide (len ≤ idx L) then
      dispTrap s d { code := 2, tmask := maskOf s.W fun L => d.rem.getLsbD L && decide (len ≤ idx L), taddr := base }
    else match checkElems s s.w .load false (rem.map fun L => (L, (base + 8 * idx L) % 2 ^ 64, 8)) with
      | .error t => dispTrap s d t
      | .ok accs =>
        let bad := accs.filter fun a => s.memPoison.contains (a.addr / 64)
        if !bad.isEmpty then
          dispTrap s d { code := 0x22, tmask := maskOf 64 fun L => bad.any fun a => a.lane == L,
                         taddr := bad.head?.elim 0 fun a => a.va }
        else if accs.any fun a => ownWrite s.w false a.addr 8 then stall s .reg
        else
          let tw := tableWords s accs
          let l0 := tw.head?.getD (0, 0)
          let g := maskOf s.W fun L => tw.any fun e => e.1 == L && e.2 == l0.2
          if g ≠ d.rem ∧ pend = false ∧ (1 < s.w.npaths ∨ Config.dispatchCap ≤ s.w.disp.length) then
            dispTrap s d { code := 3 }
          else match targetBad s l0.2 true (some d.cls) with
            | some t => dispTrap s d { t with tmask := g }
            | none =>
              let sf := touch sf false accs
              let rest := if pend then sf.w.disp.drop 1 else sf.w.disp
              let disp := if pend || g != d.rem then { d with grp := g } :: rest else rest
              let w := { (sf.w.wrS 126 (BitVec.ofNat 64 d.ret)) with disp := disp }
              let w := { w with p := { w.p with exec := g },
                                lastSite := some ⟨d.site, d.hdr, idx l0.1, d.cls⟩ }
              let sf := trace { sf with w := w } sf.w 7 l0.2 g.toNat 0
              hop sf l0.2

/-! ## Paths (R49, R50, R215 to R217) -/

/-- Every live entry of the path table with its index, in ascending order. -/
def Warp.allPaths (w : Warp) : SMap Path := w.paths.put w.pid w.p
/-- The lowest free entry. -/
def Warp.freePath (w : Warp) : Option Nat := (List.range Config.pathCap).find? fun i => !w.allPaths.has i

/-- R50, R51: the warp makes a sibling its current path; what a path has recorded at a tile name stays recorded (R88). -/
def switchPath (w : Warp) (i : Nat) : Warp :=
  match w.paths.get? i with
  | none => w
  | some q => { w.clearRes with
      paths := (w.paths.del i).put w.pid { w.p with issued := 0, age := 0 },
      pid := i, p := { q with issued := 0, age := 0 },
      park := (w.parks.get? i).map Prod.fst, parkT := ((w.parks.get? i).map Prod.snd).getD 0,
      parks := match w.park with
        | some pk => (w.parks.del i).put w.pid (pk, w.parkT)
        | none => w.parks.del i,
      idle := 0, slipDue := false, wait := .none, stalled := false }

/-- R50: the sibling to switch to: greatest ageing count, then lowest index, among those that pass a test. -/
def bestPath (w : Warp) (ok : Nat → Path → Bool) : Option Nat :=
  (w.paths.foldl (fun b e =>
    if ok e.1 e.2 then
      match b with
      | none => some (e.1, e.2.age)
      | some x => if x.2 < e.2.age then some (e.1, e.2.age) else b
    else b) (none : Option (Nat × Nat))).map Prod.fst

/-- R217: the paths whose top tag is that of an arrived path merge once all of them have arrived. -/
def mergeTag (w : Warp) (tag : Nat × Nat) (j : Nat) : Option Warp :=
  let ps := w.allPaths
  let ms := ps.filter fun e => e.2.tags.head? == some tag
  match ms with
  | [] => none
  | (i, q) :: _ =>
    if ms.all fun e => e.2.arrived == some j then
      let m := { q.step 8 with
        lanes := ms.foldl (fun m e => m ||| e.2.lanes) 0, exec := ms.foldl (fun m e => m ||| e.2.exec) 0,
        tags := q.tags.drop 1, arrived := none, issued := 0, age := 0 }
      let rest := ps.filter fun e => !ms.any fun x => x.1 == e.1
      let all := SMap.put rest i m
      let cur := if ms.any (fun e => e.1 == w.pid) then i else w.pid
      let w := if cur = w.pid then w else w.clearRes
      some { w with pid := cur, p := all.getD cur w.p, paths := all.del cur }
    else none

/-- R50: the current path ends; arrived siblings may merge, and one of the live paths becomes current: the sibling with the
greatest ageing count that neither waits at a JOIN nor is held, whether or not it can issue (log 24). -/
def nextPath (w : Warp) : Nat :=
  match bestPath w (fun _ q => q.arrived.isNone && !q.hold), bestPath w (fun _ q => q.arrived.isNone), w.paths with
  | some i, _, _ => i
  | none, some i, _ => i
  | none, none, (i, _) :: _ => i
  | none, none, [] => w.pid
/-- The current path ends and the warp goes on with path i. -/
def leavePath (w : Warp) (i : Nat) : Warp := { switchPath w i with paths := (switchPath w i).paths.del w.pid }
/-- The merges that the end of a path makes, in path order: each with the merged path and its lanes, and the warp after it (R217, R406). -/
def merges (w : Warp) : List (Nat × Word × Warp) :=
  (w.allPaths.foldl (fun x e =>
    match e.2.arrived, e.2.tags.head? with
    | some j, some t => match mergeTag x.1 t j with
      | some y =>
        let i := (x.1.allPaths.find? fun e => e.2.tags.head? == some t).elim 0 Prod.fst
        (y, x.2 ++ [(i, if i = y.pid then y.p.lanes else (y.paths.getD i {}).lanes, y)])
      | none => x
    | _, _ => x) (w, ([] : List (Nat × Word × Warp)))).2
def endPath (w : Warp) : Warp :=
  let w1 := leavePath w (nextPath w)
  ((merges w1).getLast?).elim w1 fun m => m.2.2
/-- R406: the records of a path's end: the switch, then the merges. -/
def traceEnd (s : State) (w : Warp) : State :=
  let w1 := leavePath w (nextPath w)
  (merges w1).foldl (fun s m => trace s m.2.2 6 m.1 m.2.1.toNat 0) (trace s w 6 w1.pid w1.p.lanes.toNat 0)

/-! ## Perch stops (R402, R408) -/

/-- R38, R406, R410: whether a forced transfer goes to warp n by rescue: it is counted and traced as one. -/
def byRescue (s : State) (w : Warp) (n : Nat) : Bool := rescueWarp s w.core == some n
def noteRescue (s : State) (w : Warp) (n : Nat) : State := trace (s.countOn w.id.vdev w.cluster 3) w 3 n 1 0
/-- R408: the baton of a warp that is stopped moves as a slip would move it. -/
def stopGive (s : State) (w : Warp) : State :=
  match receiver s w.core w.idx with
  | some n =>
    let t := transfer s w.core w.idx n
    if byRescue s w n then noteRescue t w n else t
  | none => s
/-- R408: the warp stops at its boundary; a baton it holds moves as a slip would move it. -/
def perchStop (s : State) (k cause : Nat) : State :=
  match s.warp? k with
  | none => s
  | some w =>
    if w.smode then s.setWarp k { w with perchReq := true }
    else
      let s := withdrawAll s k
      let s := s.modWarp k fun x => { x with perched := true, perchReq := false, wasParked := x.wasParked || w.park.isSome }
      let s := trace s w 9 cause 0 0
      if w.holding then stopGive s w else s

/-- Warps that the session stopped while their context was saved: their batons move once it is back. -/
def stopsOwed (s : State) (core : Nat) : State :=
  ((s.blockWarps core).filter fun w => w.perched && w.perchReq).foldl (fun s w =>
    let s := s.modWarp w.key fun x => { x with perchReq := false }
    match s.warp? w.key with
    | some w => if w.holding then stopGive s w else s
    | none => s) s

/-- Breakpoints are armed for the launch (R208): a session is bound to its partition and one is enabled. -/
def bpArmed (s : State) (w : Warp) : Bool :=
  s.io.perch.part == w.id.part && s.io.perch.bps.any fun b => b.getLsbD 63

end Sys2Proof.Machine
end

