-- ==== Sys2Proof/Machine/Inv.lean ====
section
/-! DEFINITION. INV (spec/12 R276 to R281): inversion of a monotone routine, one routine run at a time. The warp keeps the INV's progress in `inv`; a run begins at the routine's header and ends at its RET, where the next run is set up. -/
namespace Sys2Proof.Machine

/-- The ordered key of an f32 pattern (R278, mode 1). -/
def invKey (x : Lane) : Nat := if x.getLsbD 31 then (~~~x).toNat else x.toNat + 2 ^ 31
def invUnkey (k : Nat) : Lane := if 2 ^ 31 ≤ k then BitVec.ofNat 32 (k - 2 ^ 31) else ~~~(BitVec.ofNat 32 k)
def fLe (a b : Lane) : Bool := (fcmp .le a.toNat b.toNat).1
def fLt (a b : Lane) : Bool := (fcmp .lt a.toNat b.toNat).1
def fEq (a b : Lane) : Bool := (fcmp .eq a.toNat b.toNat).1
def isNaN32 (a : Lane) : Bool := (f32.dec a.toNat).isNan

/-- R278: the midpoint. INV's own arithmetic rounds to nearest and raises no flag. -/
def invMid (mode1 : Bool) (lo hi : Lane) : Lane :=
  if mode1 then invUnkey ((invKey lo + invKey hi) / 2)
  else
    let d := (f32.sub .rn hi.toNat lo.toNat).1
    let h := (f32.div .rn d 0x40000000).1
    BitVec.ofNat 32 (f32.add .rn lo.toNat h).1
/-- R278: the tolerance 2^(TOL − 32). -/
def invTol (t : BitVec 6) : Lane := BitVec.ofNat 32 ((t.toNat + 95) * 2 ^ 23)
def invMax (o : InvOps) : Nat := if o.maxit = 0 then 64 else o.maxit.toNat
/-- R278: a lane that needs no further iteration. -/
def invDone (o : InvOps) (lo hi cnt : Lane) : Bool :=
  decide (cnt.toNat % 128 = invMax o) ||
  (if o.mode1 then decide (invKey hi ≤ invKey lo + 1)
   else
    fLe (BitVec.ofNat 32 (f32.sub .rn hi.toNat lo.toNat).1) (invTol o.tol) ||
    fEq (invMid false lo hi) lo || fEq (invMid false lo hi) hi)
/-- R278: the target lies between the ends' images. -/
def bracketed (o : InvOps) (dec : Bool) (lo hi flo fhi y : Lane) : Bool :=
  !isNaN32 lo && !isNaN32 hi && !isNaN32 flo && !isNaN32 fhi &&
  (if o.mode1 then decide (invKey lo ≤ invKey hi) else fLe lo hi) &&
  (if dec then fLe y flo && fLe fhi y else fLe flo y && fLe y fhi)

/-- An f32 value in units of 2^−149. -/
def f32Exact (a : Lane) : Option Int :=
  match f32.dec a.toNat with
  | .fin s m e => some (FV.int s m * 2 ^ (e + 149).toNat)
  | _ => none
/-- The exact distance; none is infinite. -/
def fDist (a y : Lane) : Option Nat :=
  match f32Exact a, f32Exact y with
  | some x, some z => some (x - z).natAbs
  | _, _ => if a = y then some 0 else none
/-- R278: the end whose image lies strictly nearer; lo between equals. -/
def closer (lo hi flo fhi y : Lane) : Lane :=
  match fDist fhi y, fDist flo y with
  | some h, some l => if h < l then hi else lo
  | some _, none => hi
  | none, _ => lo

def invB (o : InvOps) (hi : Bool) : BIdx := if o.hiPair then (if hi then 3 else 2) else (if hi then 1 else 0)
/-- Writes lanes of a bracket register. -/
def wrBrk (w : Warp) (b : BIdx) (m : Word) (f : Nat → Lane) : Warp :=
  { w with brk := putAt [] w.brk b.toNat (lanes w.W fun L => if m.getLsbD L then f L else w.brkLane b L) }

/-- What a boundary leaves (R281). -/
def invSnap (w : Warp) : InvSnap :=
  { vregs := w.vregs, sregs := w.sregs, masks := w.masks, brk := w.brk, sds := w.sds, exh := w.exh, fpstat := w.fpstat, opNext := w.opNext }
/-- The warp back at the INV: PC, block and exec as before it (R281). -/
def invBack (w : Warp) (r : InvRun) : Warp :=
  { w with inv := none, p := { w.p with pc := r.pc, hdr := r.hdr, atHdr := false, exec := r.exec0 } }
/-- The same with the state of the last boundary (R281). -/
def invStop (w : Warp) (r : InvRun) : Warp := invBack w.invUndo r
/-- R278, R281: at an iteration boundary of an INV, before an Eval or after the last one, or outside any. -/
def atBoundary (w : Warp) : Bool :=
  match w.inv with
  | none => true
  | some r => r.ph == .fin || (r.n == 0 && w.p.atHdr && w.p.pc == r.target)

/-- Eval(S, val): val into X for the lanes of S, exec := S, and to the routine's header. -/
def invEval (w : Warp) (r : InvRun) (ph : InvPhase) (S : Word) (val : Nat → Lane) : Warp :=
  let r := { r with snap := invSnap w }
  let w := w.markBoundary.wrV r.o.x S val
  { w with
    inv := some { r with ph := ph, run := S, n := 0 },
    p := { w.p with pc := r.target, atHdr := true, exec := S } }

/-- R278, R279: completion. -/
def invFinish (s : State) (r : InvRun) : Out :=
  let w := s.w
  let x := w.wrV r.o.x (maskOf w.W fun L => r.live.getLsbD L && !(w.lane (r.o.x + 1) L).getLsbD 31)
    fun L => closer (w.brkLane (invB r.o false) L) (w.brkLane (invB r.o true) L) (r.flo.getD L 0) (r.fhi.getD L 0) (r.y.getD L 0)
  let w := if r.live = 0 then w else x
  let w := (w.wrS 126 (BitVec.ofNat 64 r.ret))
  let w := if r.lu then w.freeV r.o.tgt else w
  let w := { w with inv := none, invValid := false, invIter := 0, p := { w.p with exec := r.exec0, hdr := r.hdr } }
  goTo { s with w := w } r.ret

/-- R278: the loop test: the lanes that still run get a midpoint; without any, the warp stands at the boundary after the last
Eval, at the RET, and completes the INV from there. -/
def invLoop (s : State) (r : InvRun) (run : Word) : Out :=
  let w := s.w
  let lo := fun L => w.brkLane (invB r.o false) L
  let hi := fun L => w.brkLane (invB r.o true) L
  let next := maskOf w.W fun L => run.getLsbD L && !(w.lane (r.o.x + 1) L).getLsbD 31 &&
    !invDone r.o (lo L) (hi L) (w.lane (r.o.x + 1) L)
  if next = 0 then
    .next { s with w := { w.markBoundary with
      inv := some { r with ph := .fin, run := 0, n := 0, snap := invSnap w }, wait := .none, stalled := false } }
  else
    let m := lanes w.W fun L => invMid r.o.mode1 (lo L) (hi L)
    .next { s with w := invEval { w with wait := .none, stalled := false } { r with m := m } .mid next fun L => m.getD L 0 }

/-- R280: failed lanes drop out under NT, or trap at the boundary with the INV named. -/
def invFail (s : State) (r : InvRun) (code : Nat) (bad : Word) (k : State → Out) : Out :=
  if bad = 0 then k s
  else if r.o.nt then
    let w := s.w.wrV r.o.x bad fun _ => 0x7FC00000
    let c := fun L => w.lane (r.o.x + 1) L
    k { s with w := w.wrV (r.o.x + 1) bad fun L => c L ||| 0x80000000 }
  else trap { s with w := invBack s.w r } { code := code, tmask := bad }

/-- R278: the end of a routine run. -/
def invRunEnd (s : State) (r : InvRun) : Out :=
  let w := s.w
  let f := fun L => w.lane r.o.y L
  let lo := fun L => w.brkLane (invB r.o false) L
  let hi := fun L => w.brkLane (invB r.o true) L
  match r.ph with
  | .lo =>
    .next { s with w := invEval { w with wait := .none, stalled := false } { r with flo := lanes w.W f } .hi r.live hi }
  | .hi =>
    let r := { r with fhi := lanes w.W f }
    let bad := maskOf w.W fun L => r.live.getLsbD L &&
      !bracketed r.o r.dec (lo L) (hi L) (r.flo.getD L 0) (f L) (r.y.getD L 0)
    invFail s r 0x0B bad fun s => invLoop s r r.live
  | .mid =>
    let out := fun L => isNaN32 (f L) || (fLt (f L) (r.flo.getD L 0) && fLt (f L) (r.fhi.getD L 0)) ||
      (fLt (r.flo.getD L 0) (f L) && fLt (r.fhi.getD L 0) (f L))
    let bad := maskOf w.W fun L => r.run.getLsbD L && out L
    let good := r.run &&& ~~~bad
    let up := fun L => if r.dec then fLt (r.y.getD L 0) (f L) else fLt (f L) (r.y.getD L 0)
    let toLo := maskOf w.W fun L => good.getLsbD L && up L
    let toHi := good &&& ~~~toLo
    let c := fun L => w.lane (r.o.x + 1) L
    let w1 := wrBrk w (invB r.o false) toLo fun L => r.m.getD L 0
    let w2 := wrBrk w1 (invB r.o true) toHi fun L => r.m.getD L 0
    let w3 := if good = 0 then w2 else w2.wrV (r.o.x + 1) good fun L => c L + 1
    let r := { r with
      flo := lanes w.W fun L => if toLo.getLsbD L then f L else r.flo.getD L 0,
      fhi := lanes w.W fun L => if toHi.getLsbD L then f L else r.fhi.getD L 0 }
    invFail { s with w := { w3 with invIter := w3.invIter + 1 } } r 0x0A bad fun s => invLoop s r good
  | .fin => invFinish s r

/-- RET inside a routine run: it waits until Y has been written, as any reader of Y does. After the last run it completes the INV. -/
def invRet (s : State) (r : InvRun) : Out :=
  if r.ph = .fin then invFinish s r
  else gate { vsrc := [(r.o.y, false)] } s fun _ sf => invRunEnd (sf.count 0) r

/-- The 64-bit CALL that must follow and end the body (R174): its offset. Where its word cannot be fetched the INV raises PREFIX, as if
another instruction stood there (log 49). -/
def invCall (s : State) : Option (BitVec 32) :=
  if s.w.p.pc + 16 ≠ bodyEnd s.w then none
  else match fetch4 s s.w (s.w.p.pc + 8) with
    | .error _ => none
    | .ok x => match decode x with
      | .ok (.call _ off) => some off
      | _ => none

/-- What INV reads and writes when it issues; one that goes on from INVSTATE reads its counts in X+1 (R281). -/
def invUse (w : Warp) (o : InvOps) : Use :=
  { vsrc := (o.tgt, false) :: if w.invValid then [(o.x + 1, false)] else [], vdst := [o.x, o.x + 1], sdst := [126], ms := o.ms }
/-- INV (R276, R278, R281). -/
def execInv (c : Ctl) (o : InvOps) (s : State) : Out :=
  match invCall s with
  | none => illegal s 0x0B
  | some off =>
    if [o.x, o.x + 1, o.y, o.tgt].any fun r => (s.w.portOf r).isSome then trap s { code := 0x0C }
    else if !s.w.full then trap s { code := 3 }
    else
      let target := cTarget s.w off / 2 * 2
      match targetBad s target true none with
      | some t => trap s t
      | none =>
        let h : Word := match headerAt s s.w target with
          | .ok (some h) => h
          | _ => 0
        if !Hdr.mono h then illegal s 0x09
        else gate (invUse s.w o) s fun s sf =>
          let w := sf.w
          let E := s.w.activeMask o.ms
          let w := if w.invValid || E = 0 then w else w.wrV (o.x + 1) E fun _ => 0
          let w := if w.invValid then w else { w with invValid := true, invIter := 0 }
          let live := maskOf w.W fun L => E.getLsbD L && !(w.lane (o.x + 1) L).getLsbD 31
          let z := lanes w.W fun _ => (0 : Lane)
          let r : InvRun := {
            o := o, pc := w.p.pc, hdr := w.p.hdr, target := target, ret := bodyEnd w, exec0 := w.p.exec, active := E, ph := .lo,
            dec := Hdr.dec h, lu := luC c, y := lanes w.W fun L => s.w.lane o.tgt L, m := z, flo := z, fhi := z,
            live := live, run := 0, n := 0 }
          let sf := charge sf w.id.vdev w.die 0 0 1
          if live = 0 then invFinish { sf with w := w } r
          else .next { sf with
            w := invEval { w with lastSite := none, win := w.win - 1, wait := .none, stalled := false } r .lo live
              fun L => w.brkLane (invB o false) L,
            freeCtr := sf.freeCtr + 1 }

end Sys2Proof.Machine
end

