-- ==== Sys2Proof/Machine/Control.lean ====
section
/-! DEFINITION. Control transfers, paths, user traps and exits (spec/09 R202, R207 to R217). -/
namespace Sys2Proof.Machine

/-- R202. -/
def execNop (_c : Ctl) (s : State) : Out := gate {} s fun _ sf => finishS sf

/-! ## Branches (R209) -/

/-- A branch: taken to a header, or falling through. -/
def branch (ss : List (SIdx × Bool)) (off : BitVec 32) (taken : Warp → Bool) (s : State) : Out :=
  gate { ssrc := ss } s fun s sf => if taken s.w then jump s sf (cTarget s.w off) false else finishS sf
/-- exec over lanes 0 to W−1. -/
def execBits (w : Warp) : Word := w.p.exec &&& allLanes w.W

def execBr (_c : Ctl) (off : BitVec 32) (s : State) : Out := branch [] off (fun _ => true) s
def execBrz (c : Ctl) (a : SIdx) (off : BitVec 32) (s : State) : Out := branch [(a, luA c)] off (fun w => w.rdS a == 0) s
def execBrnz (c : Ctl) (a : SIdx) (off : BitVec 32) (s : State) : Out := branch [(a, luA c)] off (fun w => w.rdS a != 0) s
def execBrnone (_c : Ctl) (m : MIdx) (off : BitVec 32) (s : State) : Out :=
  branch [] off (fun w => execBits w &&& w.rdM m == 0) s
def execBrany (_c : Ctl) (m : MIdx) (off : BitVec 32) (s : State) : Out :=
  branch [] off (fun w => execBits w &&& w.rdM m != 0) s
def execBrall (_c : Ctl) (m : MIdx) (off : BitVec 32) (s : State) : Out :=
  branch [] off (fun w => execBits w &&& ~~~(w.rdM m) == 0) s

/-! ## Calls and returns (R210 to R213) -/

/-- R210: s126 := the header after the body. -/
def execCall (_c : Ctl) (off : BitVec 32) (s : State) : Out :=
  gate { sdst := [126] } s fun s sf =>
    jump s { sf with w := sf.w.wrS 126 (BitVec.ofNat 64 (bodyEnd s.w)) } (cTarget s.w off) true

/-- R212. -/
def execCalli (_c : Ctl) (v : VIdx) (cls : BitVec 8) (s : State) : Out :=
  gate { vsrc := [(v, false)], sdst := [126] } s fun s sf =>
    let ret := bodyEnd s.w
    match s.w.disp with
    | d :: _ =>
      if d.site = s.w.p.pc then serve s sf d true
      else if s.w.activeMask 0 = 0 then hop { sf with w := sf.w.wrS 126 (BitVec.ofNat 64 ret) } ret
      else serve s sf ⟨s.w.p.pc, s.w.p.hdr, ret, s.w.p.exec, s.w.activeMask 0, 0, cls, lanes s.W (s.w.lane v)⟩ false
    | [] =>
      if s.w.activeMask 0 = 0 then hop { sf with w := sf.w.wrS 126 (BitVec.ofNat 64 ret) } ret
      else serve s sf ⟨s.w.p.pc, s.w.p.hdr, ret, s.w.p.exec, s.w.activeMask 0, 0, cls, lanes s.W (s.w.lane v)⟩ false

/-- R211: the return target, bit 0 ignored; a value beyond 56 bits or a target that is no header is misdirected, and so is a
return from the user handler itself, to the 0 it was entered with (R321). -/
def ret (s sf : State) : Out :=
  let v := (s.w.rdS 126).toNat / 2 * 2
  if decide (2 ^ 56 ≤ v) || (s.w.p.inH && v == 0) then trap s { code := 2, taddr := v % 2 ^ 56 } else jump s sf v false

/-- R213: the top entry's finished group leaves rem, and the next is served, or the dispatch ends. -/
def retDispatch (s sf : State) (d : Disp) (rest : List Disp) : Out :=
  let rem := d.rem &&& ~~~d.grp
  if rem = 0 then
    ret s { sf with w := { sf.w with disp := rest, p := { sf.w.p with exec := d.exec0 &&& sf.w.p.lanes } } }
  else
    let d := { d with rem := rem }
    serve { s with w := { s.w with disp := d :: rest } } { sf with w := { sf.w with disp := d :: rest } } d true

/-- R211, R213; inside INV it ends the routine run (R277). -/
def execRet (_c : Ctl) (s : State) : Out :=
  match s.w.inv with
  | some r => invRet s r
  | none =>
    gate { ssrc := [(126, false)] } s fun s sf =>
      match s.w.disp with
      | d :: rest =>
        if d.ret = (s.w.rdS 126).toNat / 2 * 2 then retDispatch s sf d rest else ret s sf
      | [] => ret s sf

/-! ## Paths (R216, R217) -/

/-- The reconvergence point of the block (R216). -/
def reconv (w : Warp) : Nat := (BitVec.ofInt 64 ((w.p.hdr.addr : Int) + 2 * Hdr.reconv w.p.hdr.word)).toNat

/-- R216: the checks in their order, then the cases without a fork, then the fork. -/
def execSplit (_c : Ctl) (m : MIdx) (off : BitVec 32) (s : State) : Out :=
  gate {} s fun s sf =>
    let w := s.w
    let target := cTarget w off / 2 * 2
    if Hdr.reconv w.p.hdr.word = 0 then trap s { code := 3 }
    else match targetBad s (reconv w) false none, targetBad s target false none with
      | some t, _ => trap s t
      | none, some t => trap s t
      | none, none =>
        if !w.disp.isEmpty || decide (Config.tagCap ≤ w.p.tags.length) then trap s { code := 3 }
        else
          let N := w.p.lanes &&& w.rdM m
          let K := w.p.lanes &&& ~~~(w.rdM m)
          if N = 0 then finishS sf
          else if K = 0 then hop sf target
          else match w.freePath with
            | none => trap s { code := 3 }
            | some i =>
              let tags := (w.p.hdr.addr, reconv w) :: w.p.tags
              let q : Path := { pc := target, atHdr := true, hdr := w.p.hdr, lanes := N, exec := w.p.exec &&& N, tags := tags,
                                inH := w.p.inH }
              let sf := trace sf w 6 i N.toNat 0
              finishS { sf with w := { sf.w with
                paths := sf.w.paths.put i q,
                p := { sf.w.p with lanes := K, exec := sf.w.p.exec &&& K, tags := tags } } }

/-- R217: no tag, no effect; another tag, 0x03; else the path arrives, and merges once all have. -/
def execJoin (_c : Ctl) (s : State) : Out :=
  gate {} s fun s sf =>
    match s.w.p.tags with
    | [] => finishS sf
    | t :: _ =>
      if t.2 ≠ s.w.p.hdr.addr then trap s { code := 3 }
      else
        let w := { sf.w with p := { sf.w.p with arrived := some s.w.p.hdr.addr } }
        match mergeTag w t s.w.p.hdr.addr with
        | none => stall { sf with w := w } .none
        | some w' =>
          let sf := trace sf w' 6 w'.pid w'.p.lanes.toNat 0
          let sf := charge (sf.count 0) w.id.vdev w.die 0 0 1
          .next { sf with w := { w' with win := w'.win - 1, wait := .none, stalled := false }, freeCtr := sf.freeCtr + 1 }

/-! ## User traps (R208, R214) -/

def execTrap (_c : Ctl) (n : BitVec 16) (s : State) : Out := trap s { code := 0x0E, arg := n.toNat, next := true }

/-- R214: with LastSite clear it is a user trap with code 0. -/
def execTrapLazy (_c : Ctl) (s : State) : Out :=
  match s.w.lastSite with
  | none => trap s { code := 0x0E, next := true }
  | some l =>
    let rem := match s.w.disp with
      | d :: _ => d.rem
      | [] => s.w.p.exec
    trap s { code := 0x10, index := l.index, cls := l.cls.toNat, site := l.site, shdr := l.hdr.addr, remain := rem, next := true }

/-- R208, R408: the breakpoint trap, or a stop past the BRK while the session has breakpoints armed (log 15). -/
def execBrk (_c : Ctl) (n : BitVec 16) (s : State) : Out :=
  if bpArmed s s.w then
    let w := { s.w.advance s.ilen with brkArg := n.toNat }
    .next (perchStop { s.count 0 with w := w } w.key 1)
  else trap s { code := 0x0F, arg := n.toNat, next := true }

/-! ## Exits (R39, R207) -/

/-- R64, R207, R343: what the warp leaves when it becomes EXITED, before its baton moves. -/
def exited (w : Warp) : Warp :=
  { w.clearRes with
    life := .exited, disp := [], lastSite := none, active := false, smode := false, entry := none, keptEntry := none, inv := none, arrive := none,
    vregs := [], sregs := [], resV := 0, resS := 0, owed := none, wait := .none, stalled := false, forced := none, idle := 0 }

/-- The path ends, or the warp with it; its baton goes to the named warp or down the successor walk. -/
def exitWarp (s : State) (to? : Option Nat) : Out :=
  let s := charge (s.count 0) s.w.id.vdev s.w.die 0 0 1
  if 1 < s.w.npaths then
    let s := traceEnd (trace s s.w 1 (to?.getD 0) 0 s.w.idx) s.w
    .next { s with w := { (endPath s.w) with win := s.w.win - 1 } }
  else
    let w := exited s.w
    let s := { s with w := w }
    let named := to?.filter fun n => decide (n < w.id.nwarps) && (s.sibling? n).any Warp.eligible
    let heir := (named.orElse fun _ => succWalk s w.core w.idx).getD w.idx
    let s1 := match named with
      | some n => transfer s w.core w.idx n
      | none => giveUp s w.core w.idx
    let s2 := trace s1 w 1 (to?.getD 0) 0 heir
    .next (afterEnd s2 w)

def execExit (_c : Ctl) (s : State) : Out := gate {} s fun _ sf => exitWarp sf none
def execExitp (c : Ctl) (a : SIdx) (s : State) : Out :=
  gate { ssrc := [(a, luA c)] } s fun s sf => exitWarp sf (some (s.w.rdS a).toNat)

end Sys2Proof.Machine
end

