-- ==== Sys2Proof/Machine/Baton.lean ====
section
/-! DEFINITION. The PASS forms and SETFS (spec/02 R25 to R33, spec/09 R203 to R206), user control registers, time and waits (spec/03 R77, R78, spec/09 R199 to R201). -/
namespace Sys2Proof.Machine

/-! ## PASS forms (R29 to R31) -/

/-- What PASSX delivers: four scalars and, if it names one, a vector register. -/
structure Payload where
  s : List Word
  v : Option (List Lane)
  deriving DecidableEq, Repr

/-- R31: the payload into the receiver's inbox. -/
def deliver (w : Warp) (from' : Nat) (p : Payload) : Warp :=
  { w.outside (fun w =>
      let w := (((w.wrS 120 (p.s.getD 0 0)).wrS 121 (p.s.getD 1 0)).wrS 122 (p.s.getD 2 0)).wrS 123 (p.s.getD 3 0)
      match p.v with
      | some l => w.wrV 239 (allLanes w.W) fun L => l.getD L 0
      | none => w) with inboxFull := true, inboxFrom := from' }

/-- R29: the status of a PASS that names warp n, and the warp that receives the baton, if any. -/
def passStatus (s : State) (h : Warp) (n : Nat) (x : Bool) : Nat × Option Nat :=
  if n = h.idx then (if x && h.inboxFull then 4 else 0, none)
  else if h.id.nwarps ≤ n then (5, none)
  else match s.warp? (32 * h.core + n) with
    | none => (5, none)
    | some t =>
      if t.life = .exited then (5, none)
      else if t.life = .faulted then (2, none)
      else if t.holding || t.isStopped then
        let f := t.walkFs
        if f = h.idx then (3, none)
        else match s.warp? (32 * h.core + f) with
          | none => (3, none)
          | some u => if u.eligible then (1, some f) else (3, none)
      else if x && t.inboxFull then (4, none)
      else (0, some n)

/-- Event words of R410 for a status. -/
def passEvent (st : Nat) : Nat := if st = 0 then 4 else if st = 1 then 5 else 6

/-- Resolves a PASS form from the acting warp: payload, baton, status (R29 to R31, R51, R205). -/
def passTo (sf : State) (d : SIdx) (n : Nat) (p : Option Payload) : Out :=
  let h := sf.w
  let r := passStatus sf h n p.isSome
  let s1 := match p with
    | some q => if r.1 = 0 then sf.modWarp (32 * h.core + n) fun w => deliver w h.idx q else sf
    | none => sf
  let s2 := match r.2 with
    | some t => transfer s1 h.core h.idx t
    | none => s1
  let w := (s2.w.clearRes.wrS d (BitVec.ofNat 64 r.1))
  let s3 := trace (s2.count (passEvent r.1)) h 1 n r.1 (r.2.getD h.idx)
  finishS { s3 with w := { w with passHold := if d = 0 then none else some (d, 2), passPc := h.p.pc } }

def execPass (c : Ctl) (d a : SIdx) (s : State) : Out :=
  gate { ssrc := [(a, luA c)], sdst := [d] } s fun s sf => passTo sf d (s.w.rdS a).toNat none
def execPassi (_c : Ctl) (d : SIdx) (n : BitVec 5) (s : State) : Out :=
  gate { sdst := [d] } s fun _ sf => passTo sf d n.toNat none
/-- Sources are read at issue whatever the outcome; vQ over all lanes whatever exec holds (R203, R204). -/
def execPassx (c : Ctl) (d a b : SIdx) (q : Option VIdx) (s : State) : Out :=
  let vs := match q with
    | some r => [(r, luC c)]
    | none => []
  gate { ssrc := [(a, luA c), (b, luB c), (b + 1, false), (b + 2, false), (b + 3, false)],
         vsrc := vs, sdst := [d], allLanes := true } s fun s sf =>
    passTo sf d (s.w.rdS a).toNat (some ⟨[s.w.rdS b, s.w.rdS (b + 1), s.w.rdS (b + 2), s.w.rdS (b + 3)],
      q.map fun r => lanes s.W (s.w.lane r)⟩)
/-- Names FSUCC of the sender at the start of the cycle (R203). -/
def execPassf (_c : Ctl) (d : SIdx) (s : State) : Out :=
  gate { sdst := [d] } s fun s sf => passTo sf d s.w.walkFs none

/-! ## User control registers (R53, R77, R78, R199) -/

/-- R33: stores the value mod NWARPS; walks of this cycle still use the old value. -/
def setFsucc (w : Warp) (v : Word) : Warp :=
  { w with fsucc := v.toNat % max 1 w.id.nwarps, fsuccOld := some w.walkFs }

def b01 (b : Bool) : Nat := b.toNat
/-- R389: the effective energy limit, in 1/16 pJ. -/
def energyLimit (p : Part) : Nat := min (p.energy.limit * 16000000) p.ecap
/-- R368, R389: the energy a partition has used: that of its virtual devices 4p to 4p + 3. -/
def energyUsed (s : State) (pid : Nat) : Nat := ((s.part pid).vdevs.map fun v => (s.vdev (4 * pid + v)).uj).sum

/-- R394, R410: a word of a virtual device's counter bank; partition p's virtual devices are 4p to 4p + 3. -/
def bankWord (s : State) (v i : Nat) : Word :=
  let p := s.part (v / 4)
  let n : Nat := match i with
    | 0 => energyUsed s (v / 4) | 1 => energyLimit p
    | 2 => p.lease.used / 1000 | 3 => p.lease.limit
    | 4 => p.launches.used | 5 => p.launches.limit
    | 6 => p.frames.used + p.freed | 7 => p.frames.limit
    | 8 => p.furlong.used | 9 => p.furlong.limit
    | 10 => p.qexh.toNat | 11 => p.ecap
    | 12 => (s.vdev v).uj | 13 => p.fwcount
    | 14 => s.io.journal.jseq.getD (v / 4) 0 | 15 => s.now
    | i => if 64 ≤ i ∧ i < 832 then (s.vdev v).counts.getD i 0 else 0
  BitVec.ofNat 64 n

/-- R78: the six counters packed. -/
def cntWord (w : Warp) : Nat :=
  w.cnt .ld + 2 ^ 6 * w.cnt .st + 2 ^ 12 * w.cnt .tl + 2 ^ 18 * w.cnt .dm + 2 ^ 24 * w.cnt .mx + 2 ^ 30 * w.cnt .cl
/-- R78: STSTAT. -/
def ststat (w : Warp) : Nat :=
  w.exh.toNat + ((List.range 8).map fun n =>
    (b01 (w.sd n).bound * 2 ^ (8 + n) + b01 ((w.sd n).bound && (w.sd n).dir) * 2 ^ (16 + n))).sum

/-- R78: a user CSR's value; none where the number is not admitted (R77). -/
def csrRead (s : State) (w : Warp) (n : Nat) : Option Nat :=
  match n with
  | 0x000 => some w.idx
  | 0x001 => some w.id.block
  | 0x002 => some w.id.gang
  | 0x003 => some w.id.nwarps
  | 0x004 => some w.id.W
  | 0x005 => some w.id.nblocks
  | 0x006 => some w.id.ngangs
  | 0x007 => some w.id.rank
  | 0x008 => some w.id.lid.toNat
  | 0x010 => some (w.baton.getD 0xFF)
  | 0x011 => some w.fsucc
  | 0x012 => some w.slipw
  | 0x013 => some (min w.tenure (2 ^ 32 - 1))
  | 0x014 => some (2 * w.inboxFrom + b01 w.inboxFull)
  | 0x020 => some (cntWord w)
  | 0x021 => some w.lctb
  | 0x022 => some w.lctg
  | 0x023 => some w.lctd
  | 0x030 => some (16 * w.trapen.toNat + w.rmode.toNat)
  | 0x031 => some w.fpstat.toNat
  | 0x032 => some (ststat w)
  | 0x033 => some (b01 w.voidrd)
  | 0x040 => some w.pid
  | 0x041 => some w.npaths
  | 0x042 => some (128 * b01 w.invValid + w.invIter.toNat)
  | 0x050 => some w.id.tnbase
  | 0x051 => some w.id.tncount
  | 0x060 => some w.id.argbase
  | 0x061 => some w.id.dictbase
  | n => if 0x070 ≤ n ∧ n ≤ 0x07F then
      some (bankWord s w.id.vdev (16 * (s.core w.core).ctrPage + (n - 0x070))).toNat
    else none

/-- A write to a CSR that R77 admits, by its access codes (R7); fields marked RO ignore it. -/
def csrWrite (w : Warp) (n : Nat) (v : Word) : Warp :=
  match n with
  | 0x011 => setFsucc w v
  | 0x012 => { w with slipw := v.toNat % 256 }
  | 0x014 => if v.getLsbD 0 then w else { w with inboxFull := false, inboxFrom := 0 }
  | 0x030 => { w with rmode := v.extractLsb' 0 2, trapen := v.extractLsb' 4 5 }
  | 0x031 => { w with fpstat := w.fpstat &&& ~~~(v.extractLsb' 0 5) }
  | 0x032 => { w with exh := w.exh &&& ~~~(v.extractLsb' 0 8) }
  | 0x033 => { w with voidrd := w.voidrd && !v.getLsbD 0 }
  | 0x042 => { w with invValid := v.getLsbD 7, invIter := v.extractLsb' 0 7 }
  | _ => w

def execCsrrd (_c : Ctl) (d : SIdx) (n : BitVec 12) (s : State) : Out :=
  match csrRead s s.w n.toNat with
  | none => illegal s 0x0A
  | some _ => gate { sdst := [d] } s fun s sf =>
      finishS { sf with w := sf.w.wrS d (BitVec.ofNat 64 ((csrRead s s.w n.toNat).getD 0)) }
/-- A CSR write by one scalar. -/
def csrSet (c : Ctl) (n : Nat) (a : SIdx) (s : State) : Out :=
  match csrRead s s.w n with
  | none => illegal s 0x0A
  | some _ => gate { ssrc := [(a, luA c)] } s fun s sf => finishS { sf with w := csrWrite sf.w n (s.w.rdS a) }
def execCsrwr (c : Ctl) (n : BitVec 12) (a : SIdx) (s : State) : Out := csrSet c n.toNat a s
/-- CSRWR INBOX (R31, R53): a write of 0 to FULL empties the inbox. -/
def execInboxClear (c : Ctl) (a : SIdx) (s : State) : Out := csrSet c 0x014 a s
/-- CSRWR INVSTATE (R78, R281): a write of 0 abandons an interrupted INV. -/
def execInvstateAbandon (c : Ctl) (a : SIdx) (s : State) : Out := csrSet c 0x042 a s
/-- R206. -/
def execSetfs (c : Ctl) (a : SIdx) (s : State) : Out :=
  gate { ssrc := [(a, luA c)] } s fun s sf => finishS { sf with w := setFsucc sf.w (s.w.rdS a) }

/-- R200. -/
def execGtime (_c : Ctl) (d : SIdx) (s : State) : Out := sop [] d (fun _ => BitVec.ofNat 64 s.now) s

/-- R201: every selected counter is at or below the threshold. -/
def waitDone (w : Warp) (cls : BitVec 6) (n : Nat) : Bool :=
  [(0, Cls.ld), (1, Cls.st), (2, Cls.tl), (3, Cls.dm), (4, Cls.mx), (5, Cls.cl)].all fun e =>
    !cls.getLsbD e.1 || decide (w.cnt e.2 ≤ n)
def execWaitc (_c : Ctl) (cls n : BitVec 6) (s : State) : Out :=
  if waitDone s.w cls n.toNat then finishS s else stall s .counter

end Sys2Proof.Machine
end

