-- ==== Sys2Proof/Machine/Quota.lean ====
section
/-! DEFINITION. Quotas of a partition (spec/20 R389 to R393): their exhaustion and what follows from it. The lease quota is kept in grain·ns. -/
namespace Sys2Proof.Machine

/-- R389: a quota that is exhausted by what it has used: 0 energy, 1 lease, 2 launches. -/
def quotaSpent (s : State) (pid k : Nat) : Bool :=
  let p := s.part pid
  match k with
  | 0 => decide (energyLimit p ≤ energyUsed s pid)
  | 1 => decide (p.lease.limit * 1000 ≤ p.lease.used)
  | 2 => decide (p.launches.limit ≤ p.launches.used)
  | _ => p.qexh.getLsbD 3 && decide (p.frames.limit ≤ p.frames.used)
def quotaFigures (s : State) (pid k : Nat) : Nat × Nat :=
  let p := s.part pid
  match k with
  | 0 => (energyUsed s pid, energyLimit p)
  | 1 => (p.lease.used / 1000, p.lease.limit)
  | 2 => (p.launches.used, p.launches.limit)
  | 3 => (p.frames.used, p.frames.limit)
  | _ => (p.furlong.used, p.furlong.limit)
/-- R393, R396: a QUOTA record. -/
def quotaRec (s : State) (pid k frame : Nat) : State :=
  let p := s.part pid
  let f := quotaFigures s pid k
  journal s 3 pid (4 * pid + p.cur) [k, f.1, f.2, frame]
/-- Quotas that have just become exhausted, and those that have been lifted. -/
def quotaNew (s : State) (pid : Nat) : List Nat :=
  (List.range 3).filter fun k => quotaSpent s pid k && !(s.part pid).qexh.getLsbD k
def quotaLifted (s : State) (pid : Nat) : List Nat :=
  (List.range 4).filter fun k => !quotaSpent s pid k && (s.part pid).qexh.getLsbD k
/-- R393: QEXH follows, with a QUOTA record for each change. -/
def quotaMark (s : State) (pid : Nat) : State :=
  let s := (quotaNew s pid).foldl (fun s k =>
    quotaRec (s.modPart pid fun p => { p with qexh := p.qexh ||| (1#5 <<< k) }) pid k 0) s
  (quotaLifted s pid).foldl (fun s k =>
    quotaRec (s.modPart pid fun p => { p with qexh := p.qexh &&& ~~~(1#5 <<< k) }) pid k 0) s
/-- R389: LEASE and LEASET fail with CODE 3. -/
def leaseBarred (s : State) (pid : Nat) : Bool :=
  quotaSpent s pid 0 || quotaSpent s pid 1 || (s.part pid).qexh.getLsbD 3

/-- Whether a core belongs to a partition. -/
def coreIn (s : State) (pid c : Nat) : Bool := (s.part pid).dies.contains (c / 64)
/-- R393: the warp that takes a quota trap nobody's LEASE found, stopped or not. -/
def quotaWarp (s : State) (pid : Nat) : Option Warp :=
  s.allWarps.find? fun w => coreIn s pid w.core && w.life == .live && !w.smode

/-- R390: queued requests of the partition complete with a FAIL handle of CODE 3; the warps that waited. -/
def failQueued (s : State) (pid : Nat) : State × List Nat :=
  s.clusters.foldl (fun x e =>
    let mine := e.2.queue.filter fun r => (x.1.warp? r.warp).any fun w => w.id.part == pid
    let s := x.1.modCluster e.1 fun c => { c with queue := c.queue.filter fun r => !mine.contains r }
    (mine.foldl (fun s r => s.modWarp r.warp fun w => (w.wrS r.dst (failWord 3)).advance r.ilen) s,
      x.2 ++ mine.map LReq.warp)) (s, [])

/-- Trap 0x31 at a warp's boundary (R393). A stop that holds the warp holds again when its handler has returned (R332, R353). -/
def quotaTrapAt (s : State) (k : Nat) : State :=
  takeTrap ((s.modWarp k fun w => { toHandler w with stopReq := w.stopReq || w.stopped }).focus k) { code := 0x31 }

/-- R390, R393: withdrawn requests, and trap 0x31 once. -/
def quotaFollow (s : State) (pid : Nat) : State :=
  let r := if leaseBarred s pid then failQueued s pid else (s, [])
  match r.2 with
  | k :: _ => quotaTrapAt r.1 k
  | [] => match quotaWarp r.1 pid with
    | some w => quotaTrapAt r.1 w.key
    | none => r.1.modPart pid fun p => { p with held := true }
/-- What follows when a quota becomes exhausted, or is lifted. -/
def quotaChange (s : State) (pid : Nat) : State :=
  let new := quotaNew s pid
  let s := quotaMark s pid
  if new.isEmpty then s else quotaFollow s pid
def execQuotaExhausted (s : State) : Out := .next (quotaChange s s.arg.part)

end Sys2Proof.Machine
end

