-- ==== Sys2Proof/Machine/MemOps.lean ====
section
/-! DEFINITION. The issue of memory accesses (spec/11 R242 to R252): addresses, checks, operands, the outstanding operation each makes. What becomes of an operation afterwards stands in Service.lean. -/
namespace Sys2Proof.Machine

def widBytes : Wid → Nat
  | .n8 | .i8 => 1
  | .n16 | .i16 => 2
  | .w32 => 4
  | .w64 => 8

/-- The sources of a vector memory operand. -/
def memV (c : Ctl) (m : MemV) : List (VIdx × Bool) := match m.idx with
  | some r => [(r, luB c)]
  | none => []
/-- R243: the elements of the lanes in a mask. -/
def vaddrs (w : Warp) (m : MemV) (n : Nat) (mask : Word) : List Elem :=
  ((List.range w.W).filter fun L => mask.getLsbD L).map fun L =>
    let x : Word := match m.idx with
      | some r => (w.lane r L).signExtend 64
      | none => BitVec.ofNat 64 (L * n)
    (L, (w.rdS m.base + x + m.off.signExtend 64).toNat, n)
/-- R243: a scalar-memory address. -/
def saddr (w : Warp) (base : SIdx) (off : BitVec 12) : Nat := (w.rdS base + off.signExtend 64).toNat

/-- A memory instruction is charged at completion (R368), not at retirement. -/
def finishM (s : State) : Out := finish { s with w := { s.w with busy := beats s } } 4 0
def finishMS (s : State) : Out := finish s 4 0

/-- R245: a load whose destination is a write port, or a pair with one: the elements are checked and take their positions at issue
(log 27); their data comes when the load completes. They are one store operation, which counts in st from here (log 42). `outs` are
the elements of the ports before. -/
def linkPorts (s : State) (mask : Word) (id : Nat) (outs : List Acc) : List (VIdx × Bool) → State → Except TrapInfo State
  | [], sf =>
    .ok (if outs.isEmpty then sf
      else { sf with w := addOp sf.w { id := 0, cls := .st, k := .store, accs := outs, pc := s.w.p.pc, link := some id } })
  | (r, hi) :: rs, sf =>
    match sf.w.portOf r with
    | none => linkPorts s mask id outs rs { sf with w := if mask = 0 then sf.w else sf.w.pendV r mask id s.w.p.pc }
    | some p =>
      match checkElems s s.w .store false (portElems s.W (sf.w.sd p) mask) with
      | .error t => .error t
      | .ok accs =>
        linkPorts s mask id (outs ++ accs.map fun a => { a with data2 := hi.toNat }) rs { touch sf false accs with w := bumpPort sf.w p mask }

/-- A vector access that writes registers when it completes. -/
def vread (s sf : State) (k : OpK) (sp : Bool) (accs : List Acc) (mask : Word) (d : VIdx) (pair : Bool) : Out :=
  let sf := touch sf sp accs
  let id := sf.w.opNext
  let w := if accs.isEmpty then sf.w
    else addOp sf.w { id := 0, cls := .ld, k := k, sp := sp, accs := accs, dst := .vec d pair, pc := s.w.p.pc,
                      port := ((s.w.portOf d).isSome, pair && (s.w.portOf (d + 1)).isSome) }
  match linkPorts s mask id [] (if pair then [(d, false), (d + 1, true)] else [(d, false)]) { sf with w := w } with
  | .error t => trap s t
  | .ok sf => finishM sf

/-- R244: LD. -/
def execLd (c : Ctl) (d : VIdx) (m : MemV) (wd : Wid) (s : State) : Out :=
  let pair := wd == .w64
  gate { vsrc := memV c m, ssrc := [(m.base, luA c)], vdst := if pair then [d, d + 1] else [d], ms := m.ms, cls := some .ld } s
    fun s sf =>
      let mask := s.w.activeMask m.ms
      match checkElems s s.w .load m.sp (vaddrs s.w m (widBytes wd) mask) with
      | .error t => trap s t
      | .ok accs => vread s sf (.load wd false) m.sp accs mask d pair

/-- A pair's value, or one register's. -/
def pairVal (w : Warp) (d : VIdx) (pair : Bool) (L : Nat) : Nat :=
  (w.lane d L).toNat + if pair then (w.lane (d + 1) L).toNat * 2 ^ 32 else 0

/-- A write: one outstanding operation with its data. -/
def vstore (s sf : State) (cls : Cls) (k : OpK) (sp : Bool) (accs : List Acc) (scalar : Bool := false) : State :=
  let sf := touch sf sp accs
  if accs.isEmpty then sf
  else { sf with w := addOp sf.w { id := 0, cls := cls, k := k, sp := sp, accs := accs, pc := s.w.p.pc, scalar := scalar } }

/-- R244: ST. -/
def execSt (c : Ctl) (d : VIdx) (m : MemV) (wd : Wid) (s : State) : Out :=
  let pair := wd == .w64
  let ds := if pair then [(d, luC c), (d + 1, false)] else [(d, luC c)]
  gate { vsrc := memV c m ++ ds, ssrc := [(m.base, luA c)], ms := m.ms, cls := some .st } s fun s sf =>
    match checkElems s s.w .store m.sp (vaddrs s.w m (widBytes wd) (s.w.activeMask m.ms)) with
    | .error t => trap s t
    | .ok accs =>
      finishM (vstore s sf .st .store m.sp (accs.map fun a => { a with data := pairVal s.w d pair a.lane % 256 ^ a.n }))

/-- R246: LDSC. -/
def execLdsc (c : Ctl) (d : SIdx) (m : MemS) (wd : Wid) (s : State) : Out :=
  gate { ssrc := [(m.base, luA c)], sdst := [d], cls := some .ld } s fun s sf =>
    match checkElems s s.w .load m.sp [(0, saddr s.w m.base m.off, widBytes wd)] with
    | .error t => trap s { t with tmask := 0 }
    | .ok accs =>
      let sf := touch sf m.sp accs
      let w := addOp (sf.w.pendS d s.w.p.pc) {
        id := 0, cls := .ld, k := .load wd true, sp := m.sp, accs := accs, dst := .sca d, pc := s.w.p.pc, scalar := true }
      finishMS { sf with w := w }
/-- R246: STSC. -/
def execStsc (c : Ctl) (d : SIdx) (m : MemS) (wd : Wid) (s : State) : Out :=
  gate { ssrc := [(m.base, luA c), (d, luC c)], cls := some .st } s fun s sf =>
    match checkElems s s.w .store m.sp [(0, saddr s.w m.base m.off, widBytes wd)] with
    | .error t => trap s { t with tmask := 0 }
    | .ok accs =>
      finishMS (vstore s sf .st .store m.sp (accs.map fun a => { a with data := (s.w.rdS d).toNat % 256 ^ a.n }) true)

/-- R247: timing only; no access, no count, and no fault: elements of a port that would fault are skipped. -/
def execPref (c : Ctl) (m : MemV) (_wd : Wid) (s : State) : Out :=
  gate { vsrc := memV c m, ssrc := [(m.base, luA c)], ms := m.ms, vec := true, soft := true } s fun _ sf => finishM sf

/-! ## Read-modify-write (R137, R248 to R250) -/

/-- New memory value of an integer operation on n bytes (R248). -/
def rmwInt (o : Rmw) (n : Nat) (old d e : Nat) : Nat :=
  let f := fun (k : Nat) =>
    let x : BitVec k := BitVec.ofNat k old
    let y : BitVec k := BitVec.ofNat k d
    (match o with
     | .add => x + y | .sub => x - y | .and => x &&& y | .or => x ||| y | .xor => x ^^^ y
     | .min => minS x y | .max => maxS x y | .minn => minU x y | .maxn => maxU x y
     | .xchg => y
     | .cas => if x = y then BitVec.ofNat k e else x
     | _ => x).toNat
  f (8 * n)
/-- R113, R250: float operations, to nearest, the memory value first. -/
def rmwFloat (o : Rmw) (old d : Nat) : Nat :=
  match o with
  | .fadd => (f32.add .rn old d).1
  | .fmin => (f32.minmax false old d).1
  | .fmax => (f32.minmax true old d).1
  | _ => old
def rmwNew (o : Rmw) (n old d e : Nat) : Nat :=
  match o with
  | .fadd | .fmin | .fmax => rmwFloat o old d
  | _ => rmwInt o n old d e
/-- A failed CAS applies no write (R249). -/
def rmwWrites (o : Rmw) (old d : Nat) : Bool := o != .cas || old == d

/-- The operand registers of an atomic. -/
def rmwRegs (o : Rmw) (d : VIdx) (w64 : Bool) : List VIdx :=
  if o = .cas then (if w64 then [d, d + 1, d + 2, d + 3] else [d, d + 1])
  else if w64 then [d, d + 1] else [d]

/-- Operands of the lanes, read at issue (R249). -/
def rmwAccs (w : Warp) (o : Rmw) (d : VIdx) (w64 : Bool) (accs : List Acc) : List Acc :=
  accs.map fun a => { a with
    data := pairVal w d w64 a.lane,
    data2 := if o = .cas then (if w64 then pairVal w (d + 2) true a.lane else (w.lane (d + 1) a.lane).toNat) else 0 }

def regs1 (c : Ctl) (l : List VIdx) : List (VIdx × Bool) := match l with
  | [] => []
  | r :: rs => (r, luC c) :: rs.map fun x => (x, false)

/-- ATOM and FATOM: class ld, the old values come back into D. -/
def atom (c : Ctl) (o : Rmw) (d : VIdx) (m : MemV) (w64 : Bool) (s : State) : Out :=
  gate { vsrc := memV c m ++ regs1 c (rmwRegs o d w64), ssrc := [(m.base, luA c)],
         vdst := if w64 then [d, d + 1] else [d], ms := m.ms, cls := some .ld } s fun s sf =>
    let mask := s.w.activeMask m.ms
    match checkElems s s.w .atomic m.sp (vaddrs s.w m (if w64 then 8 else 4) mask) with
    | .error t => trap s t
    | .ok accs =>
      vread s sf (.rmw o true) m.sp (rmwAccs s.w o d w64 accs) mask d w64
/-- RED and FRED: class st, nothing comes back. -/
def red (c : Ctl) (o : Rmw) (d : VIdx) (m : MemV) (w64 : Bool) (s : State) : Out :=
  gate { vsrc := memV c m ++ regs1 c (rmwRegs o d w64), ssrc := [(m.base, luA c)], ms := m.ms, cls := some .st } s fun s sf =>
    match checkElems s s.w .store m.sp (vaddrs s.w m (if w64 then 8 else 4) (s.w.activeMask m.ms)) with
    | .error t => trap s t
    | .ok accs => finishM (vstore s sf .st (.rmw o false) m.sp (rmwAccs s.w o d w64 accs))

def execAtomAdd (c : Ctl) (d : VIdx) (m : MemV) (w64 : Bool) (s : State) : Out := atom c .add d m w64 s
def execAtomSub (c : Ctl) (d : VIdx) (m : MemV) (w64 : Bool) (s : State) : Out := atom c .sub d m w64 s
def execAtomAnd (c : Ctl) (d : VIdx) (m : MemV) (w64 : Bool) (s : State) : Out := atom c .and d m w64 s
def execAtomOr (c : Ctl) (d : VIdx) (m : MemV) (w64 : Bool) (s : State) : Out := atom c .or d m w64 s
def execAtomXor (c : Ctl) (d : VIdx) (m : MemV) (w64 : Bool) (s : State) : Out := atom c .xor d m w64 s
def execAtomMin (c : Ctl) (d : VIdx) (m : MemV) (w64 : Bool) (s : State) : Out := atom c .min d m w64 s
def execAtomMax (c : Ctl) (d : VIdx) (m : MemV) (w64 : Bool) (s : State) : Out := atom c .max d m w64 s
def execAtomMinn (c : Ctl) (d : VIdx) (m : MemV) (w64 : Bool) (s : State) : Out := atom c .minn d m w64 s
def execAtomMaxn (c : Ctl) (d : VIdx) (m : MemV) (w64 : Bool) (s : State) : Out := atom c .maxn d m w64 s
def execAtomXchg (c : Ctl) (d : VIdx) (m : MemV) (w64 : Bool) (s : State) : Out := atom c .xchg d m w64 s
def execAtomCas (c : Ctl) (d : VIdx) (m : MemV) (w64 : Bool) (s : State) : Out := atom c .cas d m w64 s
def execRedAdd (c : Ctl) (d : VIdx) (m : MemV) (w64 : Bool) (s : State) : Out := red c .add d m w64 s
def execRedSub (c : Ctl) (d : VIdx) (m : MemV) (w64 : Bool) (s : State) : Out := red c .sub d m w64 s
def execRedAnd (c : Ctl) (d : VIdx) (m : MemV) (w64 : Bool) (s : State) : Out := red c .and d m w64 s
def execRedOr (c : Ctl) (d : VIdx) (m : MemV) (w64 : Bool) (s : State) : Out := red c .or d m w64 s
def execRedXor (c : Ctl) (d : VIdx) (m : MemV) (w64 : Bool) (s : State) : Out := red c .xor d m w64 s
def execRedMin (c : Ctl) (d : VIdx) (m : MemV) (w64 : Bool) (s : State) : Out := red c .min d m w64 s
def execRedMax (c : Ctl) (d : VIdx) (m : MemV) (w64 : Bool) (s : State) : Out := red c .max d m w64 s
def execRedMinn (c : Ctl) (d : VIdx) (m : MemV) (w64 : Bool) (s : State) : Out := red c .minn d m w64 s
def execRedMaxn (c : Ctl) (d : VIdx) (m : MemV) (w64 : Bool) (s : State) : Out := red c .maxn d m w64 s
def execFatomAdd (c : Ctl) (d : VIdx) (m : MemV) (s : State) : Out := atom c .fadd d m false s
def execFatomMin (c : Ctl) (d : VIdx) (m : MemV) (s : State) : Out := atom c .fmin d m false s
def execFatomMax (c : Ctl) (d : VIdx) (m : MemV) (s : State) : Out := atom c .fmax d m false s
def execFredAdd (c : Ctl) (d : VIdx) (m : MemV) (s : State) : Out := red c .fadd d m false s
def execFredMin (c : Ctl) (d : VIdx) (m : MemV) (s : State) : Out := red c .fmin d m false s
def execFredMax (c : Ctl) (d : VIdx) (m : MemV) (s : State) : Out := red c .fmax d m false s

/-! ## Reservations (R138, R251, R252) -/

/-- R251: the reservation is set here, on the bytes the load will read. It opens the window of R37 where none is open: one inside an
open window does not prolong it, or the bound of R45 would not hold (log 39). -/
def execLdres (c : Ctl) (d : SIdx) (m : MemS) (w64 : Bool) (s : State) : Out :=
  let n := if w64 then 8 else 4
  gate { ssrc := [(m.base, luA c)], sdst := [d], cls := some .ld } s fun s sf =>
    match checkElems s s.w .atomic m.sp [(0, saddr s.w m.base m.off, n)] with
    | .error t => trap s { t with tmask := 0 }
    | .ok accs =>
      let sf := touch sf m.sp accs
      let a := accs.headD { lane := 0, va := 0, addr := 0, n := n }
      let w := addOp (sf.w.pendS d s.w.p.pc) {
        id := 0, cls := .ld, k := .ldres, sp := m.sp, accs := accs, dst := .sca d, pc := s.w.p.pc, scalar := true }
      finishMS { sf with w := { w with
        ldr := some { op := sf.w.opNext, addr := a.addr, va := a.va, sp := m.sp, w64 := w64 }, ldrLost := false,
        win := if sf.w.win = 0 then Config.ldresWindow + 1 else sf.w.win } }

/-- R252: the conditions the warp itself sees: a reservation that no event of R51 has cleared, of this address and width. -/
def stconOk (w : Warp) (a : Acc) (sp w64 : Bool) : Bool :=
  match w.ldr with
  | some r => r.va == a.va && r.sp == sp && r.w64 == w64 && !w.ldrLost
  | none => false

/-- R252: issues the store; whether the home or bank takes it is decided when it gets there (writeApply). -/
def execStcon (c : Ctl) (d : SIdx) (m : MemS) (w64 : Bool) (s : State) : Out :=
  let n := if w64 then 8 else 4
  gate { ssrc := [(m.base, luA c), (d, luC c)], sdst := [d], cls := some .st } s fun s sf =>
    match checkElems s s.w .atomic m.sp [(0, saddr s.w m.base m.off, n)] with
    | .error t => trap s { t with tmask := 0 }
    | .ok accs =>
      let sf := touch sf m.sp accs
      let a := accs.headD { lane := 0, va := 0, addr := 0, n := n }
      let accs := accs.map fun x => { x with data := (s.w.rdS d).toNat % 256 ^ n }
      let w := addOp (sf.w.pendS d s.w.p.pc) {
        id := 0, cls := .st, k := .stcon (stconOk s.w a m.sp w64) (s.w.ldr.elim 0 LdRes.op), scalar := true, sp := m.sp, accs := accs, dst := .sca d, pc := s.w.p.pc }
      finishMS { sf with w := { w.clearRes with win := 0 } }

end Sys2Proof.Machine
end

