-- ==== Sys2Proof/Machine/Service.lean ====
section
/-! DEFINITION. What becomes of an outstanding access (spec/06 R128 to R138): service of loads from homes, copies and fills, application of writes at their homes, completion times, and what the host sees of a publication window (R146 to R148). -/
namespace Sys2Proof.Machine

/-! ## Locations -/

/-- Accesses that touch a common aligned 8-byte unit. -/
def touches (a b : Acc) : Bool :=
  decide (a.addr / 8 * 8 < b.addr + b.n) && decide (b.addr / 8 * 8 < a.addr + a.n)
/-- An operation whose accesses are a warp's own writes, and one whose accesses are served by LOAD_COMPLETE. -/
def OpK.own : OpK → Bool
  | .store | .stcon _ _ | .rmw _ _ | .bar _ => true
  | _ => false
/-- The same with the writes of agents: engines, TSTORE, the host (R139, R148). -/
def OpK.writes (k : OpK) : Bool :=
  k.own || match k with
    | .land _ _ | .put | .host _ => true
    | _ => false
def OpK.reads : OpK → Bool
  | .load _ _ | .ldres | .stream _ => true
  | _ => false

def spUnits (a : Acc) : List Nat := ((List.range (max 1 (a.n / 8))).map fun i => a.addr / 8 + i)
/-- R345: whether the data an access reads is poisoned. -/
def accBad (s : State) (core : Nat) (sp : Bool) (a : Acc) : Bool :=
  if sp then (spUnits a).any (s.core core).spPoison.contains else s.memPoison.contains (a.addr / 64)
/-- R394: the bank of the running virtual device shows at CTRBANK. -/
def inBank (s : State) (w : Warp) (a : Acc) : Bool :=
  let b := (s.part w.id.part).ctrbank
  b != 0 && decide (b ≤ a.va) && decide (a.va < b + 32768)
/-- The bytes an access reads at its home or bank now. -/
def accVal (s : State) (w : Warp) (sp : Bool) (a : Acc) : Nat :=
  if sp then (s.core w.core).sp.readN a.addr a.n
  else if inBank s w a then
    let o := a.va - (s.part w.id.part).ctrbank
    (bankWord s w.id.vdev (o / 8)).toNat / 256 ^ (o % 8) % 256 ^ a.n
  else readPhys s a.dom a.addr a.n

/-- The bytes of the line of an access, as its home gives them now; of a line of the counter bank, the bank's (R394). -/
def lineBytes (s : State) (w : Warp) (a : Acc) : List Byte :=
  if inBank s w a then
    let base := a.va - a.va % 64
    (List.range 64).map fun i => BitVec.ofNat 8 (accVal s w false { a with va := base + i, addr := a.addr / 64 * 64 + i, n := 1 })
  else leBytes 64 (lineVal s a.dom (a.addr / 64)).toNat

/-! ## Loads (R129, R136) -/

/-- A write to the line has arrived at its home and waits: no lease is granted (R130). -/
def lineWaits (s : State) (line : Nat) : Bool :=
  s.allOps.any fun o => !o.sp && o.k.writes && o.accs.any fun a => a.arr.isSome && !a.applied && a.addr / 64 == line

/-- The core holds a copy of the line that is valid now (R129). `drop` lets the copies be gone (log 16). -/
def validCopy (s : State) (cl home : Nat) (drop : Bool) (e : Option Nat) : Bool := !drop && e.any fun t => decide (s.now + skew cl home < t)
def l1Hit (s : State) (w : Warp) (a : Acc) (drop : Bool) : Bool :=
  !a.uncached && validCopy s w.cluster a.home drop ((s.core w.core).copies.get? (a.addr / 64))
/-- A load of a line that misses in the L1: from a valid copy in the cluster's slice, or the home, which grants a lease unless a
write waits (R129). -/
def grant (s : State) (w : Warp) (a : Acc) (drop : Bool) : State :=
  if a.uncached then s
  else
    let line := a.addr / 64
    let c := s.core w.core
    let k := s.cluster w.cluster
    if validCopy s w.cluster a.home drop (k.copies.get? line) then
      s.setCore w.core { c with copies := c.copies.put line (k.copies.getD line 0) }
    else
      let s := s.countOn w.id.vdev w.cluster 11
      if a.lease = 0 ∨ lineWaits s line then s
      else
        let e := s.now + a.lease
        let s := s.setCluster w.cluster { k with copies := k.copies.put line e }
        let s := s.setCore w.core { c with copies := c.copies.put line e }
        { s with horizon := s.horizon.put line (max e (s.horizon.getD line 0)) }

/-- R136: the bytes of an access in an open fill of its line that an earlier load of the warp has in flight, and that fill's number. -/
def openFill (w : Warp) (id : Nat) (a : Acc) : Option (List Byte × Nat) :=
  let get := fun (f : Fill) =>
    if f.line = a.addr / 64 then
      (((f.bytes.drop (a.addr % 64)).take a.n).foldr (fun b l => l.bind fun l => b.map (· :: l)) (some [])).map fun bs => (bs, f.no)
    else none
  (w.ops.filter fun o => decide (o.id < id) && !o.done).findSome? fun o => o.fills.findSome? get
/-- The number of the warp's next fill: beyond those of the open ones. -/
def Warp.nextFill (w : Warp) : Nat := w.ops.foldl (fun n o => o.fills.foldl (fun n f => max n (f.no + 1)) n) 0
/-- A fill without some bytes. -/
def Fill.blank (f : Fill) (addr n : Nat) : Fill :=
  { f with bytes := ((List.range f.bytes.length).zip f.bytes).map fun e =>
      if addr ≤ 64 * f.line + e.1 ∧ 64 * f.line + e.1 < addr + n then none else e.2 }
/-- R133: bytes that the warp has read or written otherwise meanwhile are not taken from its open fills, as far as a fill holds older
values: `old` says so. -/
def blankFills (w : Warp) (addr n : Nat) (old : Fill → Bool := fun _ => true) : Warp :=
  { w with ops := w.ops.map fun o => if o.fills.isEmpty then o else
      { o with fills := o.fills.map fun f => if old f then f.blank addr n else f } }

def modAcc (o : Op) (i : Nat) (f : Acc → Acc) : Op :=
  match o.accs[i]? with
  | some a => { o with accs := setAt o.accs i (f a) }
  | none => o

/-- Serves one access of a load: its value is fixed now: from a valid L1 copy, else merged into a fill in flight, else from
farther away (R136); an LDRES reads at the home (R138). `keep` leaves the fill open to later loads of the warp. -/
def serveOne (s : State) (k id i : Nat) (drop keep : Bool) : State :=
  match s.warp? k with
  | none => s
  | some w =>
    match w.op? id with
    | none => s
    | some o =>
      match o.accs[i]? with
      | none => s
      | some a =>
        if a.val.isSome then s
        else
          let bad := accBad s w.core o.sp a
          let got := fun (v : Nat) (w : Warp) => w.modOp id fun o => modAcc o i fun a => { a with val := some v, bad := bad }
          if o.sp then s.setWarp k (got (accVal s w true a) w)
          else
            let v := accVal s w false a
            let w1 := blankFills w a.addr a.n
            if o.k == .ldres || l1Hit s w a drop then s.setWarp k (got v w1)
            else match openFill w id a with
              -- bytes taken from one fill are not taken from an older one later (R133)
              | some x => s.setWarp k (got (leVal x.1) (blankFills w a.addr a.n fun f => decide (f.no < x.2)))
              | none =>
                let fill : Fill := ⟨a.addr / 64, w.nextFill, (lineBytes s w a).map some⟩
                let w2 := if keep then (got v w1).modOp id fun o => { o with fills := o.fills ++ [fill] } else got v w1
                (grant s w a drop).setWarp k w2

/-- R133: the warp's earlier loads that touch the same unit are served first, with the lanes before lane i of the same one. -/
def serveEarlier (s : State) (k id i : Nat) (sp : Bool) (a : Acc) : State :=
  match s.warp? k with
  | none => s
  | some w =>
    (w.ops.filter fun o => decide (o.id ≤ id) && o.sp == sp && o.k.reads).foldl (fun s o =>
      (List.range (if o.id = id then i else o.accs.length)).foldl (fun s j =>
        match o.accs[j]? with
        | some b => if b.val.isNone && touches a b then serveOne s k o.id j false false else s
        | none => s) s) s

/-- R133: an earlier write of the warp to the location has not been applied; R143: before a BARARR, an earlier scratchpad write
anywhere. -/
def earlierWrite (w : Warp) (id i : Nat) (sp : Bool) (a : Acc) (all : Bool := false) : Bool :=
  w.ops.any fun o => o.sp == sp && o.k.own && (List.range o.accs.length).any fun j =>
    match o.accs[j]? with
    | some b => !b.applied && (all || touches a b) && (decide (o.id < id) || (o.id == id && decide (j < i)))
    | none => false
/-- Whether a write must wait for an earlier one: a warp's own for its own, an agent's for the earlier pieces of its own command. -/
def mustWait (w : Warp) (o : Op) (i : Nat) (a : Acc) : Bool :=
  if o.k.own then earlierWrite w o.id i o.sp a (o.k == .bar .arrive)
  else (o.accs.take i).any fun b => !b.applied && touches a b

/-- Serves one access of a load early: only the order of R133 stands in the way. -/
def serveNow (s : State) (k id i : Nat) (drop : Bool) : State :=
  match s.warp? k with
  | none => s
  | some w =>
    match w.op? id with
    | none => s
    | some o =>
      match o.accs[i]? with
      | none => s
      | some a =>
        if !o.k.reads || earlierWrite w id 0 o.sp a then s
        else serveOne (serveEarlier s k id i o.sp a) k id i drop true

/-- What a load writes to a lane, from the bytes it received (R244, R246). -/
def loadLane (wd : Wid) (v : Nat) (hi : Bool) : Lane :=
  match wd with
  | .i8 => (BitVec.ofNat 8 v).signExtend 32
  | .i16 => (BitVec.ofNat 16 v).signExtend 32
  | .w64 => if hi then BitVec.ofNat 32 (v / 2 ^ 32) else BitVec.ofNat 32 v
  | _ => BitVec.ofNat 32 v
def loadScalar (wd : Wid) (v : Nat) : Word :=
  match wd with
  | .i8 => (BitVec.ofNat 8 v).signExtend 64
  | .i16 => (BitVec.ofNat 16 v).signExtend 64
  | _ => BitVec.ofNat 64 v
def opLane (k : OpK) (v : Nat) (hi : Bool) : Lane :=
  match k with
  | .load wd _ => loadLane wd v hi
  | _ => loadLane .w64 v hi
def opScalar (k : OpK) (v : Nat) : Word :=
  match k with
  | .load wd _ => loadScalar wd v
  | _ => BitVec.ofNat 64 v

/-- The value a lane received. -/
def gotLane (o : Op) (L : Nat) : Nat := ((o.accs.find? fun a => a.lane == L).bind fun a => a.val).getD 0

/-- One destination register: a write port's stores get their data, of which there may be none (R71, R245), or the register is written (R58, R345). -/
def deliverReg (w : Warp) (o : Op) (r : VIdx) (hi : Bool) : Warp :=
  if (if hi then o.port.2 else o.port.1) then
    { w with ops := w.ops.map fun x =>
        if x.link == some o.id then
          { x with accs := x.accs.map fun a =>
              if a.data2 = hi.toNat then { a with data := (opLane o.k (gotLane o a.lane) hi).toNat % 256 ^ a.n } else a }
        else x }
  else if w.life = .exited then w
  else
    w.landV o.id r hi (maskOf w.W fun L => o.accs.any fun a => a.lane == L) (fun L => opLane o.k (gotLane o L) hi)
      ((o.accs.filter fun a => a.bad).map fun a => (a.lane, a.va))

/-- R70: the elements of a port read have arrived. -/
def deliverStage (o : Op) (p : Path) : Path :=
  match p.stage with
  | none => p
  | some st =>
    if st.op ≠ o.id then p
    else
      let ports := st.ports.map fun e =>
        let mine := o.accs.filter fun a => a.data == e.1
        let f := fun L => match mine.find? fun a => a.lane == L with
          | some a => esizeRead (BitVec.ofNat 3 a.data2) (a.val.getD 0)
          | none => 0
        (e.1, (List.range e.2.1.length).map f, (mine.filter fun a => a.bad).map fun a => (a.lane, a.va))
      { p with stage := some { st with arrived := true, ports := ports } }

def deliverTo (w : Warp) (o : Op) : Warp :=
  match o.dst with
  | .none => w
  | .vec d pair =>
    let w := deliverReg w o d false
    let w := if pair then deliverReg w o (d + 1) true else w
    if o.port.1 || o.port.2 then
      { w with ops := w.ops.map fun x => if x.link == some o.id then { x with link := none, accs := x.accs.map fun a => { a with data2 := 0 } } else x }
    else w
  | .sca d =>
    if w.life = .exited then w
    else
      let a? := o.accs.head?
      w.landS o.id d (opScalar o.k ((a?.bind fun a => a.val).getD 0)) ((a?.filter fun a => a.bad).map fun a => a.va)
  | .stage => { w with p := deliverStage o w.p, paths := w.paths.mapVals fun _ p => deliverStage o p }

/-- The result of an operation is delivered. One that was outstanding at the last boundary of an INV reaches that boundary's
registers too (R281). -/
def deliverOp (w : Warp) (o : Op) : Warp := w.result o.id fun w => deliverTo w o
/-- A scalar result that comes back to the register an operation names; an EXITED warp has none. -/
def deliverS (w : Warp) (o : Op) (v : Word) : Warp :=
  match o.dst with
  | .sca d => if w.life = .exited then w else w.result o.id fun w => w.landS o.id d v none
  | _ => w

/-- R131: LCTG and LCTD take the completion times of the operation's global writes. -/
def takeTimes (w : Warp) (o : Op) : Warp :=
  let wrote := o.accs.filter fun a => a.applied && (match o.k with
    | .rmw r _ => !a.bad && rmwWrites r (a.val.getD 0) a.data
    | .stcon ok _ => ok
    | _ => true)
  if o.sp then w
  else wrote.foldl (fun w a => { w with
    lctg := max w.lctg (a.at' + skew w.cluster a.home),
    lctd := max w.lctd (a.at' + domainSkew w.id.onePkg) }) w

/-- An operation is complete: its counter falls in issue order, its accesses are charged (R75, R368). -/
def finishOp (s : State) (k id : Nat) : State :=
  match s.warp? k with
  | none => s
  | some w =>
    match w.op? id with
    | none => s
    | some o =>
      let s := charge s w.id.vdev w.die 4 (if o.scalar then 0 else widthCode w.W) o.accs.length
      s.modWarp k fun w => w.complete id

/-- The oldest outstanding load-like operation may complete: served in full, delivered, counted (R136, R244, R249). -/
def loadDone (s : State) (k id : Nat) : State :=
  match s.warp? k with
  | none => s
  | some w =>
    match w.op? id with
    | none => s
    | some o =>
      if o.done then s
      else if o.k.reads then
        if o.accs.any fun a => a.val.isNone && earlierWrite w id 0 o.sp a then s
        else
          let s := (List.range o.accs.length).foldl (fun s i =>
            match o.accs[i]? with
            | some a => serveOne (serveEarlier s k id i o.sp a) k id i false false
            | none => s) s
          finishOp (s.modWarp k fun w => deliverOp w ((w.op? id).getD o)) k id
      else match o.k with
        | .rmw _ true =>
          if o.accs.all fun a => a.applied then finishOp (s.modWarp k fun w => takeTimes (deliverOp w o) o) k id else s
        | _ => s

/-! ## Writes (R130 to R132, R137, R138) -/

/-- Writes at a scratchpad bank. -/
def bankWrite (s : State) (me core off n v : Nat) : State :=
  let s := s.modCore core fun c => { c with
    sp := c.sp.writeN off n v,
    spPoison := if n < 8 then c.spPoison else c.spPoison.filter fun u => !(decide (off ≤ 8 * u) && decide (8 * u + 8 ≤ off + n)) }
  loseRes s me true core off n

/-- R354, R413, R415: the function and the BAR 0 offset of the register that firmware maps at a physical address (log 32). -/
def mappedReg (s : State) (pa : Nat) : Option (Nat × Nat) :=
  let o := pa - s.io.fw.bar0
  if s.io.fw.bar0 / 2 ^ 37 = 6 ∧ s.io.fw.bar0 ≤ pa ∧ o < 25 * 2 ^ 22 then some (o / 2 ^ 22, o % 2 ^ 22) else none

/-- A read-modify-write, or a conditional store that has not failed: it reads the word it would write (R345). -/
def OpK.meets : OpK → Bool
  | .rmw _ _ => true
  | .stcon ok _ => ok
  | _ => false
/-- Whether the write waits for nothing because it will write nothing (R249, R252). -/
def writesNothing (s : State) (w : Warp) (o : Op) (a : Acc) : Bool :=
  match o.k with
  | .stcon ok _ => !ok || accBad s w.core o.sp a
  | .rmw r _ => accBad s w.core o.sp a || !rmwWrites r (accVal s w o.sp a) a.data
  | _ => false

/-- What one access writes. -/
def newBytes (o : Op) (a : Acc) (old : Nat) : Nat :=
  match o.k with
  | .rmw r _ => rmwNew r a.n old a.data a.data2
  | _ => a.data

/-- Applies one access at its home or bank, now. An engine or a TSTORE is another agent than the warp that issued it (R139);
the warp's later loads do not merge into fills opened before (R133, R140). A scratchpad access raises LCTB whether or not it
writes (log 43). -/
def applyAcc (s : State) (k : Nat) (w : Warp) (o : Op) (i : Nat) (a : Acc) : State :=
  let old := accVal s w o.sp a
  let bad := if o.k == .put then a.bad else accBad s w.core o.sp a
  let me := if o.k.own then k else agentKey
  -- R345: a read-modify-write that meets a poisoned word is a detection
  let s := if o.k.meets && accBad s w.core o.sp a then memErr s w (if o.sp then 0 else a.addr) (if o.sp then 2 else 0) a.va 0 else s
  let s1 :=
    if writesNothing s w o a then s
    else match o.k with
      | .bar u => barUpdate s k w.core a.addr fun b => b.upd u
      | _ =>
        if o.sp then bankWrite s me w.core a.addr a.n (newBytes o a old)
        else if inBank s w a then s
        else match if o.k.own && decide (a.n ≤ 8) then mappedReg s a.addr else none with
        -- a store to a mapped register acts on the register (REGISTER_WRITE, at once)
        | some r => s.post .registerWrite { unit := r.1, addr := r.2, val := BitVec.ofNat 64 (newBytes o a old) }
        | none =>
          let s := homeWrite (markPage s w.id.lid a.va) me a.dom a.addr a.n (newBytes o a old) (s.now + domainSkew w.id.onePkg)
          -- R346: a TSTORE carries poison into memory
          if o.k == .put && a.bad then { s with memPoison := s.memPoison ++ [a.addr / 64] } else s
  s1.modWarp k fun w =>
    let w := if o.sp then w else blankFills w a.addr a.n
    let w := w.modOp o.id fun o =>
      let o := match o.k with
        | .stcon ok rd => { o with k := .stcon (ok && !bad) rd }
        | _ => o
      modAcc o i fun a => { a with applied := true, at' := s.now, val := some old, bad := bad }
    if o.sp then { w with lctb := max w.lctb s.now } else w

/-- The write of an access arrives at its home (R130). -/
def arriveAcc (s : State) (k id i : Nat) : State :=
  match s.warp? k with
  | none => s
  | some w =>
    match w.op? id with
    | none => s
    | some o =>
      match o.accs[i]? with
      | none => s
      | some a =>
        if a.applied || a.arr.isSome || o.sp || !o.k.writes || o.link.isSome || mustWait w o i a then s
        else
          { (s.setWarp k (w.modOp id fun o => modAcc o i fun a => { a with arr := some s.arrCtr })) with arrCtr := s.arrCtr + 1 }

/-- An earlier arrival at the line has not been applied. -/
def queuedBefore (s : State) (line n : Nat) : Bool :=
  s.allOps.any fun o => !o.sp && o.k.writes && o.accs.any fun a =>
    !a.applied && a.addr / 64 == line && a.arr.any fun m => decide (m < n)
/-- R130: the n-th write that arrived cannot be applied at its line yet. -/
def mustQueue (s : State) (line n : Nat) : Bool := queuedBefore s line n || decide (s.now < s.horizon.getD line 0)

/-- R130: the write is applied if it is first in the line's queue and chain time has passed the horizon. -/
def applyWrite (s : State) (k id i : Nat) : State :=
  match s.warp? k with
  | none => s
  | some w =>
    match w.op? id with
    | none => s
    | some o =>
      match o.accs[i]? with
      | none => s
      | some a =>
        if a.applied || !o.k.writes || o.link.isSome || mustWait w o i a then s
        else
          let s := if o.k.own then serveEarlier s k id i o.sp a else s
          let w := (s.warp? k).getD w
          if o.sp || writesNothing s w o a then applyAcc s k w o i a
          else
            let s := arriveAcc s k id i
            let w := (s.warp? k).getD w
            let n := (((w.op? id).bind fun o => o.accs[i]?).bind fun a => a.arr).getD 0
            if mustQueue s (a.addr / 64) n then s else applyAcc s k w o i a

/-! ## Writes of agents that are no warps (R130, R148, R359) -/

/-- A write by the host, the Perch window or a launch's signal arrives at its home. -/
def arriveExt (s : State) (lid : Option Word) (dom pa n v : Nat) : State :=
  let a : Acc := { lane := 0, va := pa, addr := pa, n := n, dom := dom, data := v, arr := some s.arrCtr }
  { s with ext := s.ext ++ [{ id := s.arrCtr, cls := .st, k := .host lid, accs := [a] }], arrCtr := s.arrCtr + 1 }
/-- It is applied in the order of R130; a launch's signal has its completion time then. The TD of a host write is that of a
device write inside the package (log 43). -/
def applyExt (s : State) (id : Nat) : State :=
  match s.ext.find? fun o => o.id == id with
  | none => s
  | some o =>
    match o.accs, o.k with
    | [a], .host lid =>
      if mustQueue s (a.addr / 64) id then s
      else
        let td := s.now + domainSkew (lid.all fun l => (s.launch l).id.onePkg)
        let s := homeWrite { s with ext := s.ext.filter fun o => o.id != id } agentKey a.dom a.addr a.n a.data td
        match lid with
        | some l => s.modLaunch l fun x => { x with doneAt := some td }
        | none => s
    | _, _ => { s with ext := s.ext.filter fun o => o.id != id }
/-- The agent's write, applied at once where nothing holds it back. -/
def extWrite (s : State) (lid : Option Word) (dom pa n v : Nat) : State := applyExt (arriveExt s lid dom pa n v) s.arrCtr

/-- R254: the warp's scratchpad writes before an operation are applied: the bank takes them before the credit of a command. -/
def flushBank (s : State) (k id : Nat) : State :=
  match s.warp? k with
  | none => s
  | some w =>
    (w.ops.filter fun o => o.sp && o.k.own && decide (o.id < id)).foldl (fun s o =>
      (List.range o.accs.length).foldl (fun s i => applyWrite s k o.id i) s) s

/-- R131, R252: a write operation whose accesses have all been applied completes. -/
def writeDone (s : State) (k id : Nat) : State :=
  match s.warp? k with
  | none => s
  | some w =>
    match w.op? id with
    | none => s
    | some o =>
      if o.done || !o.k.own || !(o.accs.all fun a => a.applied) then s
      else match o.k with
        | .rmw _ true => s
        | .stcon ok _ => finishOp (s.setWarp k (deliverS (takeTimes w o) o (if ok then 0 else 1))) k id
        | _ => finishOp (s.setWarp k (takeTimes w o)) k id

/-! ## Happenings of an access -/

def execLoadComplete (s : State) : Out := .next (loadDone s s.arg.warp s.arg.op)
def execStreamElementsArrive (s : State) : Out := .next (loadDone s s.arg.warp s.arg.op)
/-- WRITE_APPLY; the key of no warp stands for the other agents. -/
def execWriteApply (s : State) : Out :=
  .next (if s.arg.warp = agentKey then applyExt s s.arg.op else applyWrite s s.arg.warp s.arg.op s.arg.unit)
/-- R337: a NOTE has been appended: its ASZREC completes with the record's sequence number. -/
def noteDone (s : State) (part : Nat) : Option (Nat × Nat) → State
  | none => s
  | some (k, id) =>
    match s.warp? k with
    | none => s
    | some w => match w.op? id with
      | none => s
      | some o => finishOp (s.setWarp k (deliverS w o (BitVec.ofNat 64 (s.io.journal.jseq.getD part 0)))) k id
/-- R337, R399: an ASZREC's record is appended, or waits in the 64-entry buffer for a place; with the buffer full the ASZREC waits. -/
def aszDone (s : State) (k id : Nat) : State :=
  match s.warp? k with
  | none => s
  | some w =>
    match w.op? id with
    | none => s
    | some o =>
      match o.k with
      | .aszrec a b =>
        let j := s.io.journal
        if o.done || j.buffer.any (fun b => b.note == some (k, id)) then s
        else if journalFull s || !j.buffer.isEmpty then
          (if Config.noteCap ≤ smallRecs j then s
           else s.modIo fun io => { io with journal := { j with
             buffer := j.buffer ++ [{ kind := 7, part := w.id.part, vdev := w.id.vdev, time := s.now, words := [a.toNat, b.toNat], note := some (k, id) }] } })
        else noteDone (signDue (placeRec s 7 w.id.part w.id.vdev s.now [a.toNat, b.toNat] false)) w.id.part (some (k, id))
      | _ => s

/-! ## Publication (R147, R148, R258) -/

/-- Entries of a window's bytes up to the last one covered leave, per byte. -/
def cover (P : Nat) (l : List (Nat × Nat × Byte)) : List (Nat × Nat × Byte) :=
  match l with
  | [] => []
  | e :: rest =>
    if decide (e.1 ≤ P) || rest.any (fun f => f.2.1 == e.2.1 && decide (f.1 ≤ P)) then cover P rest else e :: cover P rest

/-- R147: the version of a PUBLISH is assigned in order of arrival, written to host memory, and the PUBLISH completes. -/
def publishDone (s : State) (k id : Nat) : State :=
  match s.warp? k with
  | none => s
  | some w =>
    match w.op? id with
    | none => s
    | some o =>
      match o.k with
      | .publish win p =>
        match s.io.windows.get? win with
        | none => s
        | some x =>
          if o.done then s
          else
            let P := max p x.ptime
            let v := x.version + 1
            let s := s.modIo fun io => { io with
              seq := io.seq + 1, hostMem := io.hostMem.writeN x.ctr 8 v,
              windows := io.windows.put win { x with
                version := v, ptime := P, later := cover P x.later, live := some (x.va, x.len, x.off) } }
            finishOp (s.setWarp k (deliverS w o (BitVec.ofNat 64 v))) k id
      | _ => s
def execPublishVersionWritten (s : State) : Out := .next (publishDone s s.arg.warp s.arg.op)

/-- R148: what a host read of the byte at an address of a window returns, and where it comes from; 2^56 for nowhere. A page of
the range without PUBW is no part of the window (R146): 2^57. -/
def windowByte (s : State) (x : Window) (va : Nat) : Byte × Nat :=
  match walk s (s.part x.part) va with
  | .leaf e level =>
    let pa := ptePA e + va % levelSize level
    if !ptePubw e then (0xFF, 2 ^ 57)
    else match x.later.find? fun f => f.2.1 == pa with
    | some f => (f.2.2, pa)
    | none => (BitVec.ofNat 8 (readPhys s (pteDom e) pa 1), pa)
  | _ => (0xFF, 2 ^ 56)

end Sys2Proof.Machine
end

