-- ==== Sys2Proof/Machine/Flags.lean ====
section
/-! DEFINITION. The five float flags of an instruction: sticky in FPSTAT, and the arithmetic trap when one is enabled (spec/05 R105, R107; spec/10 R218). Integer instructions raise none. -/
namespace Sys2Proof.Machine

/-- R78, R105: the mode a rounding field selects. -/
def modeOf (w : Warp) (r : Rnd) : RM :=
  match r with
  | .rn => .rn | .rz => .rz | .ru => .ru | .rd => .rd
  | .dflt => match w.rmode.toNat with
    | 0 => .rn | 1 => .rz | 2 => .ru | _ => .rd

/-- The flags of the lanes in a mask. -/
def flagsOf (W : Nat) (m : Word) (f : Nat → Flags) : Flags :=
  (List.range W).foldl (fun fl L => if m.getLsbD L then fl ||| f L else fl) 0
/-- R107: ORs flags into FPSTAT. -/
def orFlags (w : Warp) (fl : Flags) : Warp := { w with fpstat := w.fpstat ||| fl }
/-- Whether a flag is raised whose enable is set. -/
def enabled (w : Warp) (fl : Flags) : Bool := fl &&& w.trapen != 0
/-- R107: an enabled flag: nothing is written, FPSTAT still takes the flags, trap 0x0D records the lanes. -/
def arithTrap (s : State) (fl : Flags) (lanes : Word) : Out :=
  trap { s with w := orFlags s.w fl } { code := 0x0D, tmask := lanes }

/-- A float instruction of charge class c: per active lane a value and flags. -/
def fop (c : Nat) (vs : List (VIdx × Bool)) (d : VIdx) (ms : MIdx) (f : Warp → Nat → Lane × Flags) (s : State) : Out :=
  gate { vsrc := vs, vdst := [d], ms := ms } s fun s sf =>
    let m := s.w.activeMask ms
    let fl := flagsOf s.W m fun L => (f s.w L).2
    if enabled s.w fl then
      arithTrap s fl (maskOf s.W fun L => m.getLsbD L && enabled s.w (f s.w L).2)
    else vwrite s { sf with w := orFlags sf.w fl } d m (fun L => (f s.w L).1) fun s' => finishV s' c

/-- A comparison: per active lane a bit of a mask register; the other bits keep their values (R221, R225). -/
def cmpMask (w : Warp) (d : MIdx) (m : Word) (f : Nat → Bool) : Word :=
  maskOf w.W fun L => if m.getLsbD L then f L else (w.rdM d).getLsbD L

/-- A float comparison with its flags. -/
def fcop (vs : List (VIdx × Bool)) (d : MIdx) (ms : MIdx) (f : Warp → Nat → Bool × Flags) (s : State) : Out :=
  gate { vsrc := vs, ms := ms } s fun s sf =>
    let m := s.w.activeMask ms
    let fl := flagsOf s.W m fun L => (f s.w L).2
    if enabled s.w fl then
      arithTrap s fl (maskOf s.W fun L => m.getLsbD L && enabled s.w (f s.w L).2)
    else if m = 0 then finishV sf 2
    else finishV { sf with w := (orFlags sf.w fl).wrM d (cmpMask s.w d m fun L => (f s.w L).1) } 2

/-- A float value and flags as a lane. -/
def asLane (x : Nat × Flags) : Lane × Flags := (BitVec.ofNat 32 x.1, x.2)

end Sys2Proof.Machine
end

