-- ==== Sys2Proof/Machine/Special.lean ====
section
/-! DEFINITION. The special functions (spec/05 R122): their exact cases, and elsewhere any value within the bound, with the flags that the exact result fixes. -/
namespace Sys2Proof.Machine

/-! ## Cases of the operand -/

/-- The exponent n of an exact power ±2^n. -/
def FV.pow2? : FV → Option Int
  | .fin _ m e => if m ≠ 0 ∧ m = 2 ^ m.log2 then some ((m.log2 : Int) + e) else none
  | _ => none
def FV.sign : FV → Bool
  | .nan s _ _ => s
  | .inf s => s
  | .fin s _ _ => s
def FV.isZero : FV → Bool
  | .fin _ m _ => m == 0
  | _ => false
/-- A value that is a whole number. -/
def FV.whole? : FV → Option Int
  | .fin s m e =>
    if 0 ≤ e then some (FV.int s (m * 2 ^ (min e 200).toNat))
    else if m % 2 ^ (-e).toNat = 0 then some (FV.int s (m / 2 ^ (-e).toNat)) else none
  | _ => none
def FV.lessThan (a : FV) (n : Int) : Bool := FV.lt false a (.fin (decide (n < 0)) n.natAbs 0)

/-! ## The exact results, to about 100 bits -/

/-- 2^160, one in the fixed point of the series. -/
def fxOne : Nat := 2 ^ 160
/-- ln 2 in fixed point. -/
def fxLn2 : Nat := 1013035739299659071135698605846798551586536899366
/-- 2π × 2^320. -/
def twoPi : Nat := 13420802360424337830311681948440006481608388178854297901454212848703426437343610760199000777828079
/-- m × 2^e in fixed point with p fraction bits, truncated. -/
def fixAt (p : Nat) (m : Nat) (e : Int) : Nat :=
  if 0 ≤ e + p then m * 2 ^ (e + p).toNat else m / 2 ^ (-(e + p)).toNat
/-- The series of e^y: n further terms, the k-th of which is t. -/
def expSum (y : Nat) : Nat → Nat → Nat → Nat
  | 0, _, _ => 0
  | n + 1, k, t => t + expSum y n (k + 1) (t * y / fxOne / (k + 1))
/-- 2^Y for Y in fixed point. -/
def exp2At (Y : Int) : Nat × Int :=
  (expSum ((Y % fxOne).toNat * fxLn2 / fxOne) 60 0 fxOne, Y / fxOne - 160)
/-- The series of artanh: Σ z^(2k+1) / (2k+1), with p = z^(2k+1) and q = z^2. -/
def artanhSum (q : Nat) : Nat → Nat → Nat → Nat
  | 0, _, _ => 0
  | n + 1, k, p => p / (2 * k + 1) + artanhSum q n (k + 1) (p * q / fxOne)
/-- log2 of m × 2^e, in fixed point: the exponent, and ln t = 2 artanh ((t − 1) / (t + 1)) of the fraction t. -/
def log2At (m : Nat) (e : Int) : Int :=
  let t := fixAt 160 m (-(m.log2 : Int))
  let z := (t - fxOne) * fxOne / (t + fxOne)
  ((m.log2 : Int) + e) * fxOne + (2 * artanhSum (z * z / fxOne) 60 0 z * fxOne / fxLn2 : Nat)
/-- The alternating series of sine (from k = 1, t = r) and cosine (from k = 0, t = 1), with q = r^2. -/
def trigSum (q : Nat) : Nat → Nat → Nat → Int
  | 0, _, _ => 0
  | n + 1, k, t => (t : Int) - trigSum q n (k + 2) (t * q / fxOne / ((k + 1) * (k + 2)))
/-- An angle reduced by 2π, in fixed point. -/
def reduced (m : Nat) (e : Int) : Nat := fixAt 320 m e % twoPi / fxOne
/-- m × 2^e × (1 − x), for a small correction x > 0 in fixed point. -/
def nudged (m : Nat) (e : Int) (x : Nat) : Nat × Int := (m * (fxOne - max 1 x), e - 160)
/-- |x| < 2^−12: the first terms of the series say enough. -/
def small (m : Nat) (e : Int) : Bool := decide ((m.log2 : Int) + e < -12)

/-- The exact result for a finite x = ±m × 2^e outside the exact cases, to a relative error below 2^−90 (sine and cosine: absolute),
which no f32 rounding and no bound of R122 can tell from it. Below 2^−300 FEXP2 stands at 2^−300. -/
def approx (fn : Config.SpecialFn) (s : Bool) (m : Nat) (e : Int) : Bool × Nat × Int :=
  match fn with
  | .rcp => (s, 2 * (2 ^ 124 / m) + 1, -e - 125)
  | .rsq =>
    let (m, e) := if e % 2 = 0 then (m, e) else (2 * m, e - 1)
    (false, isqrtGo (4 ^ 130 / m) 131 0, -(e / 2) - 130)
  | .exp2 => (false, exp2At (max (FV.int s (fixAt 160 m (min e 20))) (-300 * fxOne)))
  | .log2 => let v := log2At m e; (decide (v < 0), v.natAbs, -160)
  | .sin =>
    let q := (fixAt 160 m e) * (fixAt 160 m e) / fxOne
    if small m e then (s, nudged m e (q / 6 - q * q / fxOne / 120))
    else
      let r := reduced m e
      let v := trigSum (r * r / fxOne) 45 1 r
      (s != decide (v < 0), v.natAbs, -160)
  | .cos => let r := reduced m e; let v := trigSum (r * r / fxOne) 45 0 fxOne; (decide (v < 0), v.natAbs, -160)
  | .tanh =>
    let q := (fixAt 160 m e) * (fixAt 160 m e) / fxOne
    if small m e then (s, nudged m e (q / 3 - 2 * (q * q / fxOne) / 15 + 17 * (q * q / fxOne * q / fxOne) / 315))
    else
      -- tanh x = (e^(2x) − 1) / (e^(2x) + 1)
      let y := exp2At (2 * fixAt 160 m e * fxOne / fxLn2 : Nat)
      let w := fixAt 160 y.1 y.2
      (s, (w - fxOne) * fxOne / (w + fxOne), -160)

/-! ## The bound -/

/-- |x − y| ≤ t × (1 + 2^−60): the slack covers the error of the approximation (log 10). -/
def near (x y : Bool × Nat × Int) (t : Nat × Int) : Bool :=
  let g := min (min x.2.2 y.2.2) t.2
  let v := fun (z : Bool × Nat × Int) => FV.int z.1 (z.2.1 * 2 ^ (z.2.2 - g).toNat)
  decide ((v x - v y).natAbs * 2 ^ 60 ≤ t.1 * 2 ^ (t.2 - g).toNat * (2 ^ 60 + 1))
/-- n ULPs at a value: the spacing of f32 values there (log 10). -/
def ulps (n : Nat) (v : Bool × Nat × Int) : Nat × Int := (n, max ((v.2.1.log2 : Int) + v.2.2) (-126) - 23)
/-- R122: the bound of a function; FLOG2's is absolute for an operand in [0.5, 2]. -/
def boundAt (fn : Config.SpecialFn) (m : Nat) (e : Int) (v : Bool × Nat × Int) : Nat × Int :=
  match fn with
  | .rcp => ulps 1 v
  | .rsq | .exp2 | .tanh => ulps 2 v
  | .log2 => if (m.log2 : Int) + e = 0 ∨ (m.log2 : Int) + e = -1 then (1, -22) else ulps 2 v
  | .sin | .cos => (1, -21)
/-- R122: an f32 value lies within the bound of the exact result; an infinity stands at 2^128. -/
def within (v : Bool × Nat × Int) (t : Nat × Int) (r : Nat) : Bool :=
  match f32.dec r with
  | .nan _ _ _ => false
  | .inf s => near (s, 1, 128) v t
  | .fin s m e => near (s, m, e) v t

/-- Outside the exact cases: a free value within the bound, the correctly rounded result standing for one outside it; inexact, with
overflow or underflow where the exact result says so (R107). -/
def openSpecial (fn : Config.SpecialFn) (a : Nat) : Nat × Flags :=
  match f32.dec a with
  | .fin s m e =>
    let v := approx fn s m e
    let cr := f32.round .rn v.1 v.2.1 v.2.2
    let r := (Config.special fn (BitVec.ofNat 32 a)).toNat
    (if within v (boundAt fn m e v) r then r else cr.1, fxInexact ||| cr.2)
  | _ => (f32.dnan, fxInvalid)

/-- R122: the exact cases and special values of each function; any other value within the bound is left open. -/
def specialV (fn : Config.SpecialFn) (a : Nat) : Nat × Flags :=
  let x := f32.dec a
  let one (s : Bool) : Nat := (f32.round .rn s 1 0).1
  (f32.propagate [x]).getD (match fn with
    | .rcp => match x with
      | .inf s => (f32.zero s, 0)
      | _ =>
        if x.isZero then (f32.infBits x.sign, fxDbz)
        else match x.pow2? with
          | some n => if -149 ≤ -n ∧ -n ≤ 127 then (f32.round .rn x.sign 1 (-n)).1 |> fun v => (v, 0) else openSpecial .rcp a
          | none => openSpecial .rcp a
    | .rsq => match x with
      | .inf s => if s then (f32.dnan, fxInvalid) else (f32.zero false, 0)
      | _ =>
        if x.isZero then (f32.infBits x.sign, fxDbz)
        else if x.sign then (f32.dnan, fxInvalid)
        else match x.pow2? with
          | some n => if n % 2 = 0 then ((f32.round .rn false 1 (-(n / 2))).1, 0) else openSpecial .rsq a
          | none => openSpecial .rsq a
    | .exp2 => match x with
      | .inf s => (if s then f32.zero false else f32.infBits false, 0)
      | _ =>
        if x.isZero then (one false, 0)
        else if !x.lessThan 128 then (f32.infBits false, fxOver ||| fxInexact)
        else match x.whole? with
          | some n => if -149 ≤ n then ((f32.round .rn false 1 n).1, 0) else openSpecial .exp2 a
          | none => openSpecial .exp2 a
    | .log2 => match x with
      | .inf s => if s then (f32.dnan, fxInvalid) else (f32.infBits false, 0)
      | _ =>
        if x.isZero then (f32.infBits true, fxDbz)
        else if x.sign then (f32.dnan, fxInvalid)
        else match x.pow2? with
          | some n => ((f32.round .rn (decide (n < 0)) n.natAbs 0).1, 0)
          | none => openSpecial .log2 a
    | .sin => match x with
      | .inf _ => (f32.dnan, fxInvalid)
      | _ => if x.isZero then (a, 0) else openSpecial .sin a
    | .cos => match x with
      | .inf _ => (f32.dnan, fxInvalid)
      | _ => if x.isZero then (one false, 0) else openSpecial .cos a
    | .tanh => match x with
      | .inf s => (one s, 0)
      | _ =>
        if x.isZero then (a, 0)
        else if !x.lessThan 9 || (x.neg).lessThan 9 = false then (one x.sign, 0)
        else openSpecial .tanh a)

end Sys2Proof.Machine
end

