-- ==== Sys2Proof/Machine/VecInt.lean ====
section
/-! DEFINITION. Integer vector instructions and their immediate forms (spec/10 R220 to R223). -/
namespace Sys2Proof.Machine

/-- Two vector sources, lane by lane (R220). -/
def vop2 (c : Ctl) (d a b : VIdx) (ms : MIdx) (f : Lane → Lane → Lane) (s : State) : Out :=
  vop 1 [(a, luA c), (b, luB c)] d ms (fun w L => f (w.lane a L) (w.lane b L)) s
/-- One vector source, lane by lane. -/
def vop1 (c : Ctl) (d a : VIdx) (ms : MIdx) (f : Lane → Lane) (s : State) : Out :=
  vop 1 [(a, luA c)] d ms (fun w L => f (w.lane a L)) s

/-- R220: .SAT clamps as signed, .SATU as unsigned. -/
def vaddLane (m : Sat) (a b : Lane) : Lane :=
  match m with
  | .wrap => a + b
  | .sat => satS (a.toInt + b.toInt)
  | .satu => satU ((a.toNat : Int) + b.toNat)
def vsubLane (m : Sat) (a b : Lane) : Lane :=
  match m with
  | .wrap => a - b
  | .sat => satS (a.toInt - b.toInt)
  | .satu => satU ((a.toNat : Int) - b.toNat)
def vabsLane (sat : Bool) (a : Lane) : Lane := if sat then satS (a.toInt.natAbs : Int) else if a.toInt < 0 then -a else a
def vnegLane (sat : Bool) (a : Lane) : Lane := if sat then satS (-a.toInt) else -a

def execVadd (c : Ctl) (d a b : VIdx) (ms : MIdx) (m : Sat) (s : State) : Out := vop2 c d a b ms (vaddLane m) s
def execVsub (c : Ctl) (d a b : VIdx) (ms : MIdx) (m : Sat) (s : State) : Out := vop2 c d a b ms (vsubLane m) s
def execVmul (c : Ctl) (d a b : VIdx) (ms : MIdx) (s : State) : Out := vop2 c d a b ms (fun x y => x * y) s
def execVmulh (c : Ctl) (d a b : VIdx) (ms : MIdx) (u : Bool) (s : State) : Out := vop2 c d a b ms (mulHi 32 u) s
def execVmad (c : Ctl) (d a b cc : VIdx) (ms : MIdx) (s : State) : Out :=
  vop 1 [(a, luA c), (b, luB c), (cc, luC c)] d ms (fun w L => w.lane a L * w.lane b L + w.lane cc L) s
def execVand (c : Ctl) (d a b : VIdx) (ms : MIdx) (s : State) : Out := vop2 c d a b ms (fun x y => x &&& y) s
def execVor (c : Ctl) (d a b : VIdx) (ms : MIdx) (s : State) : Out := vop2 c d a b ms (fun x y => x ||| y) s
def execVxor (c : Ctl) (d a b : VIdx) (ms : MIdx) (s : State) : Out := vop2 c d a b ms (fun x y => x ^^^ y) s
/-- Bits 31:5 of a shift amount are ignored. -/
def execVshl (c : Ctl) (d a b : VIdx) (ms : MIdx) (s : State) : Out := vop2 c d a b ms (fun x y => x <<< (y.toNat % 32)) s
def execVshr (c : Ctl) (d a b : VIdx) (ms : MIdx) (s : State) : Out := vop2 c d a b ms (fun x y => x >>> (y.toNat % 32)) s
def execVsra (c : Ctl) (d a b : VIdx) (ms : MIdx) (s : State) : Out := vop2 c d a b ms (fun x y => x.sshiftRight (y.toNat % 32)) s
def execVmin (c : Ctl) (d a b : VIdx) (ms : MIdx) (s : State) : Out := vop2 c d a b ms minS s
def execVmax (c : Ctl) (d a b : VIdx) (ms : MIdx) (s : State) : Out := vop2 c d a b ms maxS s
def execVminn (c : Ctl) (d a b : VIdx) (ms : MIdx) (s : State) : Out := vop2 c d a b ms minU s
def execVmaxn (c : Ctl) (d a b : VIdx) (ms : MIdx) (s : State) : Out := vop2 c d a b ms maxU s
def execVabs (c : Ctl) (d a : VIdx) (ms : MIdx) (m : Bool) (s : State) : Out := vop1 c d a ms (vabsLane m) s
def execVneg (c : Ctl) (d a : VIdx) (ms : MIdx) (m : Bool) (s : State) : Out := vop1 c d a ms (vnegLane m) s
def execVclz (c : Ctl) (d a : VIdx) (ms : MIdx) (s : State) : Out := vop1 c d a ms (fun x => BitVec.ofNat 32 (leadZeros x)) s
def execVpopc (c : Ctl) (d a : VIdx) (ms : MIdx) (s : State) : Out := vop1 c d a ms (fun x => BitVec.ofNat 32 (ones x)) s

/-- A comparison that writes a mask (R221); with no active lane it does nothing (R218). -/
def vcmp (vs : List (VIdx × Bool)) (d : MIdx) (ms : MIdx) (f : Warp → Nat → Bool) (s : State) : Out :=
  gate { vsrc := vs, ms := ms } s fun s sf =>
    let m := s.w.activeMask ms
    if m = 0 then finishV sf 1 else finishV { sf with w := sf.w.wrM d (cmpMask s.w d m (f s.w)) } 1
def execVcmp (c : Ctl) (d : MIdx) (a b : VIdx) (ms : MIdx) (p : Pred) (s : State) : Out :=
  vcmp [(a, luA c), (b, luB c)] d ms (fun w L => predHolds p (w.lane a L) (w.lane b L)) s
/-- R221: mC is read over the whole warp. -/
def execVsel (c : Ctl) (d a b : VIdx) (cc : MIdx) (ms : MIdx) (s : State) : Out :=
  vop 1 [(a, luA c), (b, luB c)] d ms (fun w L => if (w.rdM cc).getLsbD L then w.lane a L else w.lane b L) s

/-- R222: a bracket register's active lanes; brackets are not renamed. -/
def wrB (w : Warp) (b : BIdx) (m : Word) (f : Nat → Lane) : Warp :=
  { w with brk := putAt [] w.brk b.toNat (lanes w.W fun L => if m.getLsbD L then f L else w.brkLane b L) }
def execVmov (c : Ctl) (f : VMovForm) (ms : MIdx) (s : State) : Out :=
  match f with
  | .vv d a => vop1 c d a ms (fun x => x) s
  | .bv d a =>
    gate { vsrc := [(a, luA c)], ms := ms } s fun s sf =>
      let m := s.w.activeMask ms
      if m = 0 then finishV sf 1 else finishV { sf with w := wrB sf.w d m (s.w.lane a) } 1
  | .vb d a => vop 1 [] d ms (fun w L => w.brkLane a L) s
def execVlane (_c : Ctl) (d : VIdx) (ms : MIdx) (s : State) : Out := vop 1 [] d ms (fun _ L => BitVec.ofNat 32 L) s

/-- R223: an immediate sign-extended to a lane. -/
def sx28 (i : BitVec 28) : Lane := i.signExtend 32
def execVaddi (c : Ctl) (d a : VIdx) (ms : MIdx) (i : BitVec 28) (s : State) : Out := vop1 c d a ms (fun x => x + sx28 i) s
def execVandi (c : Ctl) (d a : VIdx) (ms : MIdx) (i : BitVec 28) (s : State) : Out := vop1 c d a ms (fun x => x &&& sx28 i) s
def execVori (c : Ctl) (d a : VIdx) (ms : MIdx) (i : BitVec 28) (s : State) : Out := vop1 c d a ms (fun x => x ||| sx28 i) s
def execVxori (c : Ctl) (d a : VIdx) (ms : MIdx) (i : BitVec 28) (s : State) : Out := vop1 c d a ms (fun x => x ^^^ sx28 i) s
def execVshli (c : Ctl) (d a : VIdx) (ms : MIdx) (n : BitVec 5) (s : State) : Out := vop1 c d a ms (fun x => x <<< n.toNat) s
def execVshri (c : Ctl) (d a : VIdx) (ms : MIdx) (n : BitVec 5) (s : State) : Out := vop1 c d a ms (fun x => x >>> n.toNat) s
def execVsrai (c : Ctl) (d a : VIdx) (ms : MIdx) (n : BitVec 5) (s : State) : Out := vop1 c d a ms (fun x => x.sshiftRight n.toNat) s
def execVmovi (_c : Ctl) (d : VIdx) (ms : MIdx) (i : BitVec 28) (s : State) : Out := vop 1 [] d ms (fun _ _ => sx28 i) s
def execVcmpi (c : Ctl) (d : MIdx) (a : VIdx) (ms : MIdx) (p : Pred) (i : BitVec 24) (s : State) : Out :=
  vcmp [(a, luA c)] d ms (fun w L => predHolds p (w.lane a L) (i.signExtend 32)) s

end Sys2Proof.Machine
end

