-- ==== Sys2Proof/Machine/VecFloat.lean ====
section
/-! DEFINITION. Float vector instructions and conversions (spec/10 R224 to R228, R231 to R233). SCACC stands with the tiles. -/
namespace Sys2Proof.Machine

/-- Two f32 sources and a rounding field. -/
def fop2 (c : Ctl) (d a b : VIdx) (ms : MIdx) (f : Warp → Nat → Nat → Nat × Flags) (s : State) : Out :=
  fop 2 [(a, luA c), (b, luB c)] d ms (fun w L => asLane (f w (w.lane a L).toNat (w.lane b L).toNat)) s
def fop1 (k : Nat) (c : Ctl) (d a : VIdx) (ms : MIdx) (f : Warp → Nat → Nat × Flags) (s : State) : Out :=
  fop k [(a, luA c)] d ms (fun w L => asLane (f w (w.lane a L).toNat)) s

def execFadd (c : Ctl) (d a b : VIdx) (ms : MIdx) (r : Rnd) (s : State) : Out := fop2 c d a b ms (fun w => f32.add (modeOf w r)) s
def execFsub (c : Ctl) (d a b : VIdx) (ms : MIdx) (r : Rnd) (s : State) : Out := fop2 c d a b ms (fun w => f32.sub (modeOf w r)) s
def execFmul (c : Ctl) (d a b : VIdx) (ms : MIdx) (r : Rnd) (s : State) : Out := fop2 c d a b ms (fun w => f32.mul (modeOf w r)) s
def execFfma (c : Ctl) (d a b cc : VIdx) (ms : MIdx) (r : Rnd) (s : State) : Out :=
  fop 2 [(a, luA c), (b, luB c), (cc, luC c)] d ms
    (fun w L => asLane (f32.fma (modeOf w r) (w.lane a L).toNat (w.lane b L).toNat (w.lane cc L).toNat)) s
def execFmin (c : Ctl) (d a b : VIdx) (ms : MIdx) (s : State) : Out := fop2 c d a b ms (fun _ => f32.minmax false) s
def execFmax (c : Ctl) (d a b : VIdx) (ms : MIdx) (s : State) : Out := fop2 c d a b ms (fun _ => f32.minmax true) s
/-- R227: bit 31 alone changes. -/
def execFabs (c : Ctl) (d a : VIdx) (ms : MIdx) (s : State) : Out :=
  vop 2 [(a, luA c)] d ms (fun w L => w.lane a L &&& 0x7FFFFFFF) s
def execFneg (c : Ctl) (d a : VIdx) (ms : MIdx) (s : State) : Out :=
  vop 2 [(a, luA c)] d ms (fun w L => w.lane a L ^^^ 0x80000000) s
def execFcmp (c : Ctl) (d : MIdx) (a b : VIdx) (ms : MIdx) (p : FPred) (s : State) : Out :=
  fcop [(a, luA c), (b, luB c)] d ms (fun w L => fcmp p (w.lane a L).toNat (w.lane b L).toNat) s
def execFclass (c : Ctl) (d a : VIdx) (ms : MIdx) (s : State) : Out :=
  vop 2 [(a, luA c)] d ms (fun w L => BitVec.ofNat 32 (fclass (w.lane a L).toNat)) s
def execFdiv (c : Ctl) (d a b : VIdx) (ms : MIdx) (r : Rnd) (s : State) : Out := fop2 c d a b ms (fun w => f32.div (modeOf w r)) s
def execFsqrt (c : Ctl) (d a : VIdx) (ms : MIdx) (r : Rnd) (s : State) : Out := fop1 2 c d a ms (fun w => f32.sqrt (modeOf w r)) s
def execFrcp (c : Ctl) (d a : VIdx) (ms : MIdx) (s : State) : Out := fop1 3 c d a ms (fun _ => specialV .rcp) s
def execFrsq (c : Ctl) (d a : VIdx) (ms : MIdx) (s : State) : Out := fop1 3 c d a ms (fun _ => specialV .rsq) s
def execFexp2 (c : Ctl) (d a : VIdx) (ms : MIdx) (s : State) : Out := fop1 3 c d a ms (fun _ => specialV .exp2) s
def execFlog2 (c : Ctl) (d a : VIdx) (ms : MIdx) (s : State) : Out := fop1 3 c d a ms (fun _ => specialV .log2) s
def execFsin (c : Ctl) (d a : VIdx) (ms : MIdx) (s : State) : Out := fop1 3 c d a ms (fun _ => specialV .sin) s
def execFcos (c : Ctl) (d a : VIdx) (ms : MIdx) (s : State) : Out := fop1 3 c d a ms (fun _ => specialV .cos) s
def execFtanh (c : Ctl) (d a : VIdx) (ms : MIdx) (s : State) : Out := fop1 3 c d a ms (fun _ => specialV .tanh) s
def execFscale (c : Ctl) (d a b : VIdx) (ms : MIdx) (r : Rnd) (s : State) : Out :=
  fop 2 [(a, luA c), (b, luB c)] d ms
    (fun w L => asLane (fscale (modeOf w r) (w.lane a L).toNat (w.lane b L).toInt)) s

/-- R228: the element format of a packed instruction. -/
def halfFmt (bf : Bool) : Fmt := if bf then bf16 else f16
def execHfma2 (c : Ctl) (d a b cc : VIdx) (ms : MIdx) (r : Rnd) (bf : Bool) (s : State) : Out :=
  fop 2 [(a, luA c), (b, luB c), (cc, luC c)] d ms
    (fun w L => halves ((halfFmt bf).fma (modeOf w r)) (w.lane a L) (w.lane b L) (w.lane cc L)) s
def execHadd2 (c : Ctl) (d a b : VIdx) (ms : MIdx) (r : Rnd) (bf : Bool) (s : State) : Out :=
  fop 2 [(a, luA c), (b, luB c)] d ms
    (fun w L => halves (fun x y _ => (halfFmt bf).add (modeOf w r) x y) (w.lane a L) (w.lane b L) 0) s
def execHmul2 (c : Ctl) (d a b : VIdx) (ms : MIdx) (r : Rnd) (bf : Bool) (s : State) : Out :=
  fop 2 [(a, luA c), (b, luB c)] d ms
    (fun w L => halves (fun x y _ => (halfFmt bf).mul (modeOf w r) x y) (w.lane a L) (w.lane b L) 0) s

def execCvt (c : Ctl) (d a : VIdx) (ms : MIdx) (dst src : CvtTy) (r : Rnd) (s : State) : Out :=
  fop 2 [(a, luA c)] d ms (fun w L => cvtLane dst src (modeOf w r) (w.lane a L)) s
/-- R232: an 8-bit type reads its destination. -/
def execPack (c : Ctl) (d a b : VIdx) (ms : MIdx) (t : PackTy) (hi : Bool) (r : Rnd) (s : State) : Out :=
  fop 2 ([(a, luA c), (b, luB c)] ++ if PackTy_byte t then [(d, false)] else []) d ms
    (fun w L => packLane t hi (modeOf w r) (w.lane d L) (w.lane a L) (w.lane b L)) s
def execUnpack (c : Ctl) (d a : VIdx) (ms : MIdx) (t : PackTy) (n : BitVec 2) (s : State) : Out :=
  fop 2 [(a, luA c)] d ms (fun w L => unpackLane t n.toNat (w.lane a L)) s

end Sys2Proof.Machine
end

