-- ==== Sys2Proof/Machine/TileOps.lean ====
section
/-! DEFINITION. Tile instructions and SCACC (spec/12 R260 to R265, spec/10 R229, R230), and the happenings of the tile table (spec/04 R84 to R93). -/
namespace Sys2Proof.Machine

/-- H of the T format: s0 to s63 (R180). -/
def hS (h : HIdx) : SIdx := h.setWidth 7
/-- The operand run s[H] to s[H+n−1], never freed (R260). -/
def hRun (h : HIdx) (n : Nat) : List (SIdx × Bool) := (List.range n).map fun i => (hS h + BitVec.ofNat 7 i, false)

/-- R86: the tile-state fault. -/
def tileTrap (s : State) (sub : Nat) : Out := trap s { code := 7, sub := sub }
/-- A parked instruction of the current path is not attempted again (R88). -/
def unlessParked (s : State) (k : Out) : Out :=
  match s.w.park with
  | some p => stall s (.name p.name)
  | none => k
/-- R48: exec all ones over lanes 0 to W−1. -/
def needFull (s : State) (k : Out) : Out := if s.w.full then k else trap s { code := 3 }
/-- R263: rows beyond the tile. -/
def rowBad (s : State) (row : Nat) : Bool := decide (15 < row + s.W / 16 - 1)

/-- What R84 to R87 say of a write or TSEAL by a warp. -/
inductive DestV where
  | ok | discard | fault (sub : Nat)
  deriving DecidableEq, Repr
def destVerdict (t : Tile) (w : Warp) : DestV :=
  let mine := t.defw == w.idx && t.defb == w.id.block
  match t.st with
  | .filling => if !mine then .fault 2 else if t.sealP then .fault 3 else .ok
  | .ready => if t.void && mine then .discard else .fault 4
  | _ => .fault 4

/-- R88: the operation is recorded at the name and the warp parks; scalars and vectors are freed when it is served. -/
def parkAt (s : State) (w : Warp) (n : Nat) (pk : Park) : Out :=
  let s := trace ({ s with w := { w with park := some pk, parkT := 0 } }.count 7) w 5 n 0 0
  let s := match pk.k with
    | .new _ _ => s.modGang w.id.lid w.id.gang fun g => { g with newWait := g.newWait ++ [recId w.key w.pid] }
    | _ => s.modTile w.cluster n fun t => { t with parked := t.parked ++ [recId w.key w.pid] }
  stall s (.name n)

def freed {α : Type} (l : List (α × Bool)) : List α := (l.filter fun x => x.2).map Prod.fst

/-- The elements a read delivers to a write port take their positions now (R245); without a port nothing is done. -/
def linkIf (s : State) (link : Option VIdx) (pend : Bool) (sf : State) : Except TrapInfo State :=
  match link with
  | some v => if pend || (s.w.portOf v).isSome then linkPorts s (allLanes s.W) s.w.opNext [] [(v, false)] sf else .ok sf
  | none => .ok sf

/-- R84, R88: a counted read of a name: outstanding where the name is READY, recorded where it is FREE or FILLING. -/
def readName (s sf : State) (n : Nat) (o : Op) (u : Use) (link : Option VIdx) : Out :=
  let t := s.tile s.w.cluster n
  let o := { o with port := (link.any fun v => (s.w.portOf v).isSome, false) }
  match t.st with
  | .draining => tileTrap s 4
  | .ready =>
    match linkIf s link true { sf with w := addOp sf.w o } with
    | .error t => trap s t
    | .ok sf =>
      let sf := sf.modTile s.w.cluster n fun t => { t with reads := t.reads + 1 }
      finish { sf with w := { sf.w with busy := beats s } } 5 0
  | _ =>
    let ports := writePorts s.w u
    match linkIf s link false { s with w := addOp s.w o } with
    | .error t => trap s t
    | .ok s1 =>
      parkAt s1 s1.w n {
        name := n, k := .read, op := s.w.opNext, ilen := s.ilen, frees := freed u.ssrc, vfrees := freed u.vsrc,
        port0 := ports.map fun p => (p, (s.w.sd p).pos), exh0 := s1.w.exh &&& ~~~s.w.exh }

/-- R262. -/
def execTdef (c : Ctl) (td : TileRef) (k : TKind) (s : State) : Out :=
  unlessParked s <|
  let u : Use := { ssrc := tileSrc td (luB c) }
  gate u s fun s sf =>
    match absName s.w td with
    | none => tileTrap s 1
    | some n =>
      if (s.tile s.w.cluster n).st == .free then finishS (sf.takeName s.w.cluster n s.w k)
      else parkAt s s.w n { name := n, k := .define k, ilen := s.ilen, frees := freed u.ssrc }
/-- R91, R262. -/
def execTnew (_c : Ctl) (h : HIdx) (k : TKind) (s : State) : Out :=
  unlessParked s <|
  gate { sdst := [hS h] } s fun s sf =>
    let g := s.gang s.w.id.lid s.w.id.gang
    -- TNEWs recorded before it come first (R91)
    match if g.newWait.isEmpty then s.freeHead s.w.cluster g else none with
    | some n =>
      finishS ({ sf with w := sf.w.wrS (hS h) (BitVec.ofNat 64 (n - s.w.id.tnbase)) }.takeName s.w.cluster n s.w k)
    | none => parkAt s s.w s.w.id.tnbase { name := State.noName, k := .new k (hS h), ilen := s.ilen }

/-- The rows a TWRITE moves: the lanes of the register in order, little-endian (R263). -/
def laneBytes (w : Warp) (v : VIdx) : List Byte := (List.range w.W).flatMap fun L => leBytes 4 (w.lane v L).toNat
/-- R263: counted; the table takes the rows later (tileWriteAccept). -/
def execTwrite (c : Ctl) (td : TileRef) (v : VIdx) (row : BitVec 4) (s : State) : Out :=
  if rowBad s row.toNat then illegal s 3
  else needFull s <|
    gate { vsrc := [(v, luC c)], ssrc := tileSrc td (luB c), cls := some .tl, allLanes := true } s fun s sf =>
      match absName s.w td with
      | none => tileTrap s 1
      | some n =>
        let t := s.tile s.w.cluster n
        let o : Op := { id := 0, cls := .tl, k := .twrite row.toNat (laneBytes s.w v), pc := s.w.p.pc, name := n, tag := t.defc }
        match destVerdict t s.w with
        | .fault x => tileTrap s x
        | .discard => finish { sf with w := { addOp sf.w o with busy := beats s } } 5 0
        | .ok =>
          let sf := sf.modTile s.w.cluster n fun t => { t with writes := t.writes + 1 }
          finish { sf with w := { addOp sf.w o with busy := beats s } } 5 0
/-- R87, R264. -/
def execTseal (c : Ctl) (td : TileRef) (s : State) : Out :=
  gate { ssrc := tileSrc td (luB c) } s fun s sf =>
    match absName s.w td with
    | none => tileTrap s 1
    | some n =>
      let t := s.tile s.w.cluster n
      match destVerdict t s.w with
      | .fault x => tileTrap s x
      | .discard => finishS sf
      | .ok =>
        let sf := sf.setTile s.w.cluster n { t with sealP := true }
        finishS (if t.writes = 0 then sf.makeReady s.w.cluster n false else sf)
/-- R263. -/
def execTread (c : Ctl) (v : VIdx) (ta : TileRef) (row : BitVec 4) (s : State) : Out :=
  unlessParked s <|
  if rowBad s row.toNat then illegal s 3
  else needFull s <|
    let u : Use := { ssrc := tileSrc ta (luA c), vdst := [v], cls := some .tl, allLanes := true }
    gate u s fun s sf =>
      match absName s.w ta with
      | none => tileTrap s 1
      | some n =>
        readName s sf n { id := 0, cls := .tl, k := .tread row.toNat, dst := .vec v false, pc := s.w.p.pc, name := n } u (some v)
/-- R84, R264. -/
def execTkill (c : Ctl) (ta : TileRef) (s : State) : Out :=
  gate { ssrc := tileSrc ta (luA c) } s fun s sf =>
    match absName s.w ta with
    | none => tileTrap s 1
    | some n =>
      let t := s.tile s.w.cluster n
      if t.st == .ready then
        finishS (if t.reads = 0 then sf.makeFree s.w.cluster n else sf.setTile s.w.cluster n { t with st := .draining })
      else tileTrap s 4
/-- R83, R264. -/
def execTstat (c : Ctl) (h : HIdx) (ta : TileRef) (s : State) : Out :=
  gate { ssrc := tileSrc ta (luA c), sdst := [hS h] } s fun s sf =>
    match absName s.w ta with
    | none => tileTrap s 1
    | some n => finishS { sf with w := sf.w.wrS (hS h) (tileStatus s s.w.cluster n) }

/-! ## TLOAD and TSTORE (R265) -/

/-- The pitch: the signed low half of s[H+1], or the form's own. -/
def pitchOf (v : Word) (d : Int) : Int := if (v.extractLsb' 0 32).toInt = 0 then d else (v.extractLsb' 0 32).toInt
/-- 64-byte pieces of a transfer with the tile row of each: by row, or by plane of the two blocks. -/
def units (base : Word) (pitch : Word) (form : TLoadForm) : List (Nat × Nat) :=
  match form with
  | .row => (List.range 16).map fun j => (j, (base + BitVec.ofInt 64 (pitchOf pitch 64 * (j : Int))).toNat)
  | .plane m j => (List.range 2).flatMap fun q => (List.range j.toNat).map fun i =>
      (8 * q + i, (base + BitVec.ofInt 64 (pitchOf pitch (64 * (m.toNat : Int)) * (q : Int) + 64 * (i : Int))).toNat)
def unitElems (us : List (Nat × Nat)) : List Elem := us.map fun u => (u.1, u.2, 64)
/-- A transfer's own trap names no lane. -/
def noLanes (t : TrapInfo) : TrapInfo := { t with tmask := 0 }

/-- R265: a write by the definer; the plane form sets KIND and PLANES, at issue (log 45). -/
def execTload (c : Ctl) (td : TileRef) (h : HIdx) (sp : Bool) (f : TLoadForm) (s : State) : Out :=
  gate { ssrc := tileSrc td (luB c) ++ hRun h 2, cls := some .tl } s fun s sf =>
    match absName s.w td with
    | none => tileTrap s 1
    | some n =>
      match checkElems s s.w .load sp (unitElems (units (s.w.rdS (hS h)) (s.w.rdS (hS h + 1)) f)) with
      | .error t => trap s (noLanes t)
      | .ok accs =>
        let t := s.tile s.w.cluster n
        let planes := match f with
          | .row => 0
          | .plane _ j => j.toNat
        let o : Op := { id := 0, cls := .tl, k := .tload planes, sp := sp, accs := accs, pc := s.w.p.pc, name := n, tag := t.defc }
        match destVerdict t s.w with
        | .fault x => tileTrap s x
        | .discard => finish { touch sf sp accs with w := addOp sf.w o } 5 0
        | .ok =>
          let sf := touch sf sp accs
          let sf := sf.modTile s.w.cluster n fun t => { t with
            writes := t.writes + 1,
            kind := match f with
              | .row => t.kind
              | .plane _ j => .pi j }
          finish { sf with w := addOp sf.w o } 5 0

/-- R265: the form of a TSTORE for a tile of a kind. -/
def storeForm (plane : Bool) (k : TKind) : TLoadForm :=
  if plane then (match k with
    | .pi k => .plane k k
    | _ => .plane 8 8)
  else .row
/-- R379: the units a TSTORE in plane form may come to write when its name is READY with another plane count than now, as far as they can
be translated at issue (log 28). -/
def spareAccs (s : State) (w : Warp) (n : Nat) (sp : Bool) (base pitch : Word) : List Acc :=
  if (s.tile w.cluster n).st == .ready then []
  else ([2, 3, 4, 5, 6, 7, 8].flatMap fun k => units base pitch (.plane k k)).filterMap fun u => (accOf s w .store sp (u.1, u.2, 64)).toOption
def execTstore (c : Ctl) (ta : TileRef) (h : HIdx) (sp : Bool) (plane : Bool) (s : State) : Out :=
  unlessParked s <|
  let u : Use := { ssrc := tileSrc ta (luA c) ++ hRun h 2, cls := some .tl }
  gate u s fun s sf =>
    match absName s.w ta with
    | none => tileTrap s 1
    | some n =>
      let base := s.w.rdS (hS h)
      let pitch := s.w.rdS (hS h + 1)
      match checkElems s s.w .store sp (unitElems (units base pitch (storeForm plane (s.tile s.w.cluster n).kind))) with
      | .error t => trap s (noLanes t)
      | .ok accs =>
        let accs := accs ++ if plane then spareAccs s s.w n sp base pitch else []
        let o : Op := { id := 0, cls := .tl, k := .tstore base.toNat pitch.toNat plane, sp := sp, accs := accs, pc := s.w.p.pc, name := n }
        readName (touch s sp accs) (touch sf sp accs) n o u none

/-! ## SCACC (R120, R229, R230) -/

def vsSrc (x : VOrS) (lu : Bool) : List (VIdx × Bool) × List (SIdx × Bool) :=
  match x with
  | .v r => ([(r, lu)], [])
  | .s r => ([], [(r, lu)])
def vsLane (w : Warp) (x : VOrS) (L : Nat) : Nat :=
  match x with
  | .v r => (w.lane r L).toNat
  | .s r => (w.rdS r).toNat % 2 ^ 32

/-- The vector form computes at issue; the tile form when its read completes. -/
def execScacc (c : Ctl) (d : VIdx) (a : ScaccA) (b cc : VOrS) (ms : MIdx) (s : State) : Out :=
  let bs := vsSrc b (luB c)
  let cs := vsSrc cc (luC c)
  match a with
  | .v r =>
    gate { vsrc := [(r, luA c)] ++ bs.1 ++ cs.1 ++ [(d, false)], ssrc := bs.2 ++ cs.2, vdst := [d], ms := ms } s fun s sf =>
      let f := fun L => asLane (scaccV (s.w.lane r L).toInt (vsLane s.w b L) (vsLane s.w cc L) (s.w.lane d L).toNat)
      let m := s.w.activeMask ms
      let fl := flagsOf s.W m fun L => (f L).2
      if enabled s.w fl then arithTrap s fl (maskOf s.W fun L => m.getLsbD L && enabled s.w (f L).2)
      else vwrite s { sf with w := orFlags sf.w fl } d m (fun L => (f L).1) fun s' => finishV s' 2
  | .tile sa row =>
    unlessParked s <|
    if rowBad s row.toNat then illegal s 3
    else needFull s <|
      let u : Use := { vsrc := bs.1 ++ cs.1 ++ [(d, false)], ssrc := [(sa, luA c)] ++ bs.2 ++ cs.2, vdst := [d], ms := ms, cls := some .tl }
      gate u s fun s sf =>
        let m := s.w.activeMask ms
        -- R47, R74: with no active lane it reads no tile and counts nothing
        if m = 0 then vwrite s sf d 0 (fun _ => 0) fun s' => finishV s' 2
        else match absName s.w (.reg sa) with
        | none => tileTrap s 1
        | some n =>
          let vals := fun (x : VOrS) => lanes s.W fun L => BitVec.ofNat 32 (vsLane s.w x L)
          let o : Op := { id := 0, cls := .tl, k := .scacc row.toNat (vals b) (vals cc) (lanes s.W (s.w.lane d)) m s.w.p.hdr.addr s.w.inv.isSome, dst := .vec d false,
                          pc := s.w.p.pc, name := n }
          readName s sf n o u (some d)

/-! ## Happenings of the tile table -/


/-- R263, R265, R90: the table takes the rows of a TWRITE in tl order, or the last row of a TLOAD; rows written to a name
whose definer has ended, or to a later definition, store nothing. -/
def tileAccept (s : State) (k id : Nat) : State :=
  match s.warp? k with
  | none => s
  | some w =>
    match w.op? id with
    | none => s
    | some o =>
      let t := s.tile w.cluster o.name
      let live := t.st == .filling && t.defc == o.tag
      let store := live && !t.orphan
      match o.k with
      | .twrite row data =>
        if o.done || w.ops.any (fun x => decide (x.id < id) && !x.done && (match x.k with
            | .twrite _ _ => true
            | _ => false)) then s
        else
          let s := if store then s.setTile w.cluster o.name { t with
            data := t.data.put (64 * row) data,
            poison := t.poison.filter fun u => !(decide (64 * row ≤ 8 * u) && decide (8 * u < 64 * row + data.length)) } else s
          let s := charge s w.id.vdev w.die 5 (widthCode w.W) (w.W / 16)
          let s := s.modWarp k fun w => { w.complete id with lctb := max w.lctb s.now }
          if live then s.tileWriteDone w.cluster o.name else s
      | .tload planes =>
        if o.done then s
        else
          let get := fun (a : Acc) => if o.sp then (s.core w.core).sp.bytes a.addr 64 else readPhysBytes s a.dom a.addr 64
          let bad := fun (a : Acc) => if o.sp then (List.range 8).filter fun i => (s.core w.core).spPoison.contains (a.addr / 8 + i)
            else if s.memPoison.contains (a.addr / 64) then List.range 8 else []
          let zeros := if planes = 0 then [] else (List.range 16).filter fun r => decide (planes ≤ r % 8)
          let d0 := zeros.foldl (fun (m : Memory) r => m.put (64 * r) (List.replicate 64 0)) t.data
          let d1 := o.accs.foldl (fun (m : Memory) a => m.put (64 * a.lane) (get a)) d0
          let s := if store then s.setTile w.cluster o.name { t with
            data := d1, poison := o.accs.flatMap fun a => (bad a).map fun i => 8 * a.lane + i } else s
          let s := match o.accs.find? fun a => !(bad a).isEmpty with
            | some a => memErr s w (if o.sp then 0 else a.addr) (if o.sp then 2 else 0) a.va 0
            | none => s
          let s := charge s w.id.vdev w.die 5 (widthCode w.W) o.accs.length
          let s := s.modWarp k fun w => w.complete id
          if live then s.tileWriteDone w.cluster o.name else s
      | _ => s
def execTileWriteAccept (s : State) : Out := .next (tileAccept s s.arg.warp s.arg.op)

/-- The lanes of W/16 rows from one on, as accesses a destination takes its lanes from. -/
def rowAccs (t : Tile) (W row : Nat) : List Acc :=
  (List.range W).map fun L =>
    let b := 64 * row + 4 * L
    { lane := L, va := 0, addr := 0, n := 4, val := some (leVal ((List.range 4).map fun i => tileByte t (b + i))),
      bad := !t.void && t.poison.contains (b / 8) }

/-- R265, R379: a TSTORE has read its tile; each unit goes where it was translated to at issue, and a unit that could not be translated then
is not written (log 28). Scratchpad takes the rows at once; the writes to memory go to their homes, each in the order of R130, and the
TSTORE completes when they are visible (R140). -/
def storeRows (s : State) (k : Nat) (w : Warp) (o : Op) (t : Tile) (base pitch : Nat) (plane : Bool) : State :=
  let us := units (BitVec.ofNat 64 base) (BitVec.ofNat 64 pitch) (storeForm plane t.kind)
  let accs := us.filterMap fun u => (o.accs.find? fun a => a.va == u.2).map fun a => { a with lane := u.1 }
  let bad := fun (r : Nat) => (List.range 8).filter fun i => !t.void && t.poison.contains (8 * r + i)
  let s := match accs.find? fun a => !(bad a.lane).isEmpty with
    | some a => memErr s w (if o.sp then 0 else a.addr) 2 a.va 0
    | none => s
  let s := (s.modWarp k fun w => if t.void then { w with voidrd := true } else w).tileReadDone w.cluster o.name
  if o.sp then
    let s := accs.foldl (fun s a =>
      (bankWrite s agentKey w.core a.addr 64 (leVal (tileRow t a.lane))).modCore w.core fun c => { c with
        spPoison := c.spPoison ++ (bad a.lane).map fun i => a.addr / 8 + i }) s
    (charge s w.id.vdev w.die 5 (widthCode w.W) accs.length).modWarp k fun w => w.complete o.id
  else
    s.modWarp k fun w => w.modOp o.id fun o => { o with k := .put, accs := accs.map fun a => { a with
      data := leVal (tileRow t a.lane), bad := !(bad a.lane).isEmpty } }
/-- Every write of an agent's operation has been applied and is visible to every domain (R140). -/
def Op.visible (o : Op) (s : State) (w : Warp) : Bool :=
  o.accs.all fun a => a.applied && decide (a.at' + domainSkew w.id.onePkg < s.now)
/-- A TSTORE completes. -/
def putDone (s : State) (k id : Nat) : State :=
  match s.warp? k with
  | none => s
  | some w =>
    match w.op? id with
    | none => s
    | some o =>
      if o.k == .put && !o.done && o.visible s w then
        (charge s w.id.vdev w.die 5 (widthCode w.W) o.accs.length).modWarp k fun w => w.complete id
      else s

/-- R230: the arithmetic of SCACC.T, when its rows have been read: D and flags are written, or 0x0D names the SCACC. -/
def scaccDone (s : State) (k : Nat) (w : Warp) (o : Op) (accs : List Acc) (b c old : List Lane) (m : Word) (hdr : Nat) (inner : Bool) (d : VIdx) : State :=
  let f := fun L => asLane (scaccV (BitVec.ofNat 32 (gotLane { o with accs := accs } L)).toInt (b.getD L 0).toNat (c.getD L 0).toNat
    (old.getD L 0).toNat)
  let fl := flagsOf w.W m fun L => (f L).2
  let w1 := w.result o.id fun w => (orFlags w fl).unpendV d o.id
  if w.life == .live && enabled w fl then
    -- R368: an instruction that faults is charged nothing
    let s := ((s.setWarp k (w1.complete o.id))).focus k
    -- R281: of a SCACC in the routine the INV is named, and the SCACC is the inner instruction
    let here := inner && w.inv.isSome
    takeTrap s { code := 0x0D, tmask := maskOf w.W fun L => m.getLsbD L && enabled w (f L).2, rhdr := hdr,
                 tpc := if here then none else some o.pc, inner := some (if here then o.pc else 0) }
  else
    let bad := (accs.filter fun a => a.bad && m.getLsbD a.lane).map fun a => (a.lane, 0)
    let w2 := if w.life == .exited then w1 else w1.result o.id fun w => w.landV o.id d false m (fun L => (f L).1) bad
    -- R368: the rows it read, and the beats of a float instruction
    let s := charge s w.id.vdev w.die 5 (widthCode w.W) (w.W / 16)
    (charge s w.id.vdev w.die 2 (widthCode w.W) (w.W / 16)).setWarp k (w2.complete o.id)

/-- A read of a name completes (R84, R88, R93, R263, R265). -/
def tileRead (s : State) (k id : Nat) : State :=
  match s.warp? k with
  | none => s
  | some w =>
    match w.op? id with
    | none => s
    | some o =>
      if o.done || w.records.any fun p => p.op == id then s
      else
        let t := s.tile w.cluster o.name
        let voidrd := fun (w : Warp) => if t.void then { w with voidrd := true } else w
        match o.k with
        | .tread row =>
          let o := { o with accs := rowAccs t w.W row }
          let s := charge s w.id.vdev w.die 5 (widthCode w.W) (w.W / 16)
          (s.setWarp k ((voidrd (deliverOp w o)).complete id)).tileReadDone w.cluster o.name
        | .scacc row b c old m hdr inner =>
          let s := s.tileReadDone w.cluster o.name
          match o.dst with
          | .vec d _ => scaccDone s k (voidrd w) o (rowAccs t w.W row) b c old m hdr inner d
          | _ => s
        | .tstore base pitch plane => storeRows s k w o t base pitch plane
        | _ => s
def execTileReadComplete (s : State) : Out := .next (tileRead s s.arg.warp s.arg.op)

/-- R84, R92: a drained name becomes FREE. The key of no name is the end of a cycle in which names were freed: the next recorded TNEW of
the cluster takes the head of its gang's free order (R91). -/
def execTileDrainComplete (s : State) : Out :=
  if s.arg.key = State.noName then
    .next (match s.newDue s.arg.cluster with
      | some gk => s.serveNew s.arg.cluster gk
      | none => s)
  else
  let t := s.tile s.arg.cluster s.arg.key
  .next (if t.st == .draining && t.reads == 0 then s.makeFree s.arg.cluster s.arg.key else s)
/-- R90. -/
def execDefinerVoid (s : State) : Out :=
  let t := s.tile s.arg.cluster s.arg.key
  .next (if t.st == .filling && t.orphan && t.writes == 0 then s.makeReady s.arg.cluster s.arg.key true else s)
/-- R89: a parked operation of the warp has waited for 2^24 cycles, in its current path or another. -/
def watchdogUp (w : Warp) : Bool :=
  !w.isStopped && w.life == .live &&
  ((w.park.isSome && decide (Config.watchdog ≤ w.parkT)) || w.parks.any fun e => decide (Config.watchdog ≤ e.2.2))
/-- R89: those whose parks began in one cycle trap in one cycle: they come before anything that follows from the first trap. -/
def watchdogAll (s : State) (w : Warp) : State :=
  { s with due := ((s.allWarps.filter fun x => x.cluster == w.cluster && x.key != w.key && watchdogUp x).map fun x =>
      (⟨.tileWaitWatchdog, { warp := x.key }⟩ : Happening)) ++ s.due }
/-- R89: the park has lasted 2^24 cycles: the operation is withdrawn and the trap 0x08 taken, on the path that parked. -/
def execTileWaitWatchdog (s : State) : Out :=
  match s.warp? s.arg.warp with
  | none => .next s
  | some w =>
    let s := watchdogAll s w
    if w.isStopped || w.life != .live then .next s
    else if w.park.isSome && decide (Config.watchdog ≤ w.parkT) then
      .next (takeTrap ((s.withdrawCur s.arg.warp).focus s.arg.warp) { code := 8 })
    else match w.parks.find? fun e => decide (Config.watchdog ≤ e.2.2) with
      | some e =>
        let s := s.setWarp s.arg.warp (switchPath w e.1)
        .next (takeTrap ((s.withdrawCur s.arg.warp).focus s.arg.warp) { code := 8 })
      | none => .next s

end Sys2Proof.Machine
end

