-- ==== Sys2Proof/Machine/Leases.lean ====
section
/-! DEFINITION. Leases (spec/07 R151 to R165, R169, spec/12 R266, R267): requests, grants, wakes, vacating, retention and eviction. -/
namespace Sys2Proof.Machine

/-! ## Leave and instances (R151, R152, R158, R169) -/

/-- A lease whose instance is awake, waking or still to stop. -/
def Lease.holds (l : Lease) : Bool := l.st != .evicted || l.stopping
/-- Instances that hold leave, each once: a shared array is charged at its first context. -/
def heldInsts (c : Cluster) : List (EngClass × Nat) :=
  ((c.leases.vals.filter Lease.holds).map fun l => (l.cls, l.inst)).eraseDups
def leaveHeld (c : Cluster) : Nat := ((heldInsts c).map fun x => leave x.1).sum
def leaveFree (c : Cluster) : Nat := Config.leaveBudget - leaveHeld c
/-- Contexts of an array in use. -/
def contexts (c : Cluster) (cls : EngClass) (i : Nat) : List Lease :=
  c.leases.vals.filter fun l => l.holds && l.cls == cls && l.inst == i
/-- R161: a retention that has not run out. One with a live partner does not run. -/
def kept (s : State) (c : Cluster) (r : Retain) : Bool :=
  !(contexts c r.cls r.inst).isEmpty || decide (s.now < r.since + Config.retention)

/-- What a request can take: instance, the gang's own retained state, and the leave it costs. -/
structure Pick where
  inst : Nat
  own : Option Retain := none
  cost : Nat
  deriving DecidableEq, Repr

/-- Instances of the class with no context in use. -/
def freeInsts (c : Cluster) (cls : EngClass) : List Nat :=
  (List.range (instances cls)).filter fun i => (contexts c cls i).isEmpty
/-- The retained instance whose retention began earliest. -/
def oldest (l : List Retain) : Option Retain :=
  l.foldl (fun b r => match b with
    | none => some r
    | some x => if r.since < x.since then some r else b) none
/-- R158, R169: what the cluster prefers for a request: a shared one takes the free context of an array that is shared already,
one it vacated itself first; then the free instances come, the gang's own retained, a sleeping one, the one retained longest. All
free instances of a class cost the same, so no other choice could be granted where the preferred one cannot. Between equals the spec is
silent, and the model takes (log 50): of the gang's own retained instances the one retained earliest, of sleeping instances the lowest
index, and of half-shared arrays the lowest index without a retained context, then the lowest. -/
def pick (s : State) (cl : Nat) (lid : Word) (g : Nat) (cls : EngClass) (sh : Bool) : Option Pick :=
  let c := s.cluster cl
  let ret := c.retained.filter fun r => r.cls == cls && kept s c r
  let free := freeInsts c cls
  -- a context beside a live partner costs nothing
  let half := (List.range (instances cls)).filter fun i =>
    match contexts c cls i with
    | [l] => sh && l.sh && l.st != .evicted
    | _ => false
  let own := fun (l : List Nat) => oldest (ret.filter fun r => r.lid == lid && r.gang == g && r.sh == sh && l.contains r.inst)
  let blank := fun (l : List Nat) => l.find? fun i => !ret.any fun r => r.inst == i
  if !half.isEmpty then
    match own half with
    | some r => some ⟨r.inst, some r, 0⟩
    | none => ((blank half).orElse fun _ => half.head?).map fun i => ⟨i, none, 0⟩
  else
    match own free with
    | some r => some ⟨r.inst, some r, leave cls⟩
    | none => ((blank free).orElse fun _ => (oldest (ret.filter fun r => free.contains r.inst)).map Retain.inst).map fun i =>
        ⟨i, none, leave cls⟩

/-- R160. -/
def wakeLatency (cls : EngClass) (own : Bool) : Nat :=
  match cls with
  | .mx => if own then 40 else 2000
  | .dm => 250 | .cv => 150 | .cl => 1000

/-- R153, R155, R160: the lease of a grant and its handle. A request of another mode or gang finds no state. -/
def grantPick (s : State) (w : Warp) (cls : EngClass) (sh : Bool) (prio : Nat) (p : Pick) : State × Word :=
  let c := s.cluster w.cluster
  let h := handleWord c.gen cls sh p.inst
  -- R155, R161: DM and CL linger in retention, and wake with no state: they read LIVE
  let keep := p.own.filter fun _ => cls == .mx || cls == .cv
  let l : Lease := {
    cls := cls, inst := p.inst, sh := sh, lid := w.id.lid, gang := w.id.gang, part := w.id.part, vdev := w.id.vdev, prio := prio,
    st := .waking, kept := keep.isSome, grant := s.now, wakeAt := s.now + wakeLatency cls keep.isSome,
    eng := keep.elim {} fun r => r.eng, binding := keep.bind fun r => r.binding }
  let ret := match p.own with
    | some o => c.retained.erase o
    | none => c.retained.filter fun r => !(r.cls == cls && r.inst == p.inst)
  (((s.setCluster w.cluster { c with gen := (c.gen + 1) % 2 ^ 16, leases := c.leases.put h.toNat l, retained := ret }).countOn
    w.id.vdev w.cluster 9).actOn w.id.vdev 0 (classNo cls) 1, h)

/-! ## The queue (R157, R158, R162) -/

def LReq.old (s : State) (r : LReq) : Bool := decide (r.since + Config.leasePatience ≤ s.now)
/-- R157: priority class, then arrival. -/
def insertReq (r : LReq) : List LReq → List LReq
  | [] => [r]
  | x :: l => if r.prio < x.prio then r :: x :: l else x :: insertReq r l
/-- What a request can be granted now, given the classes and the leave that older requests block (R158). -/
def canGrant (s : State) (cl : Nat) (w : Warp) (cls : EngClass) (sh : Bool) (blocked : List EngClass) : Option Pick :=
  match pick s cl w.id.lid w.id.gang cls sh with
  | none => none
  | some p =>
    if blocked.contains cls || (!blocked.isEmpty && p.cost != 0) || decide (leaveFree (s.cluster cl) < p.cost) then none else some p
/-- The scan of the queue: the first request that can be granted, or the classes that waiting ones block. -/
def scan (s : State) (cl : Nat) : List LReq → List EngClass → Option (LReq × Pick) × List EngClass
  | [], b => (none, b)
  | r :: l, b =>
    match s.warp? r.warp with
    | none => scan s cl l b
    | some w =>
      match canGrant s cl w r.cls r.sh b with
      | some p => (some (r, p), b)
      | none => scan s cl l (if r.old s then r.cls :: b else b)
/-- The requests that joined before the present cycle (R165). -/
def waiting (s : State) (cl : Nat) : List LReq := (s.cluster cl).queue.filter fun r => !r.fresh
/-- The lease controller acts between the cycles of its cluster: after the VACATEs of a cycle, before its new requests (R165). -/
def nextGrant (s : State) (cl : Nat) : Option (LReq × Pick) :=
  if s.betweenCycles cl then (scan s cl (waiting s cl) []).1 else none

/-- A grant: the new lease stands under its handle. -/
def giveLease (s : State) (cl : Nat) (w : Warp) (r : LReq) (p : Pick) : State × Word :=
  let g := grantPick s w r.cls r.sh r.prio p
  (traceLease g.1 w g.2.toNat ((g.1.lease? cl g.2.toNat).any Lease.kept).toNat, g.2)
/-- A request is granted: the handle is written and the LEASE completes. -/
def serveReq (s : State) (cl : Nat) (w : Warp) (r : LReq) (p : Pick) : State :=
  let g := giveLease (s.modCluster cl fun c => { c with queue := c.queue.erase r }) cl w r p
  (charge (g.1.countOn w.id.vdev cl 0) w.id.vdev w.die 0 0 1).modWarp r.warp fun w => { (w.wrS r.dst g.2).advance r.ilen with idle := 0 }
/-- Where a request stands among those of its cycle: by core, then by slot (R165). -/
def LReq.place (r : LReq) : Nat := r.warp / 32 * 4 + r.warp % 4
/-- R159: the queue is full when a LEASET of the cycle comes to the controller. -/
def queueFull (s : State) (cl : Nat) (r : LReq) : Bool :=
  decide (Config.leaseQueueCap ≤ ((s.cluster cl).queue.filter fun x => !x.fresh || decide (x.place < r.place)).length)
/-- A LEASET is decided (R159): no waiting request can be granted any more in this cycle. -/
def decideTry (s : State) (cl : Nat) (r : LReq) : State :=
  let s := s.modCluster cl fun c => { c with tries := c.tries.erase r }
  match s.warp? r.warp with
  | none => s
  | some w =>
    if w.life != .live then s
    else
      let g := match canGrant s cl w r.cls r.sh (scan s cl (waiting s cl) []).2, journalFull s with
        | some p, false => giveLease s cl w r p
        | _, _ => (s, failWord (if queueFull s cl r then 2 else 1))
      -- a younger write may have taken the register (log 7)
      g.1.modWarp r.warp fun w => if r.dst = 0 ∨ w.pendingS r.dst then w.wrS r.dst g.2 else w
/-- LEASETs wait for their decision between the cycles of the cluster. -/
def tryDue (s : State) (cl : Nat) : Option LReq := if s.betweenCycles cl then (s.cluster cl).tries.head? else none
/-- LEASE_GRANT (R158), and after the grants of a cycle its LEASETs. No grant without room in the journal (R399). -/
def execLeaseGrant (s : State) : Out :=
  let cl := s.arg.cluster
  match if journalFull s then none else (nextGrant s cl).bind fun x => (s.warp? x.1.warp).map fun w => (x, w) with
  | some ((r, p), w) => .next (serveReq s cl w r p)
  | none => .next ((tryDue s cl).elim s (decideTry s cl))
/-- The machine as it would stand after every grant that could be made now, with the classes that waiting requests block. -/
def afterGrants (cl : Nat) : Nat → State → State × List EngClass
  | 0, s => (s, [])
  | n + 1, s =>
    match scan s cl (waiting s cl) [] with
    | (none, b) => (s, b)
    | (some (r, p), b) => match s.warp? r.warp with
      | none => (s, b)
      | some w => afterGrants cl n (serveReq s cl w r p)

/-- R162: the awake and waking leases a request may take leave or an instance from, in the order they go; a shared array ranks
by the higher priority and the earlier grant of its contexts. -/
def victims (s : State) (cl : Nat) (r : LReq) : List (EngClass × Nat) :=
  let c := s.cluster cl
  let arrays := heldInsts c
  let live := fun (x : EngClass × Nat) => (contexts c x.1 x.2).filter fun l => l.st != .evicted
  let rank := fun (x : EngClass × Nat) => ((live x).map Lease.prio).foldl min 3
  let since := fun (x : EngClass × Nat) => ((live x).map Lease.grant).foldl min (2 ^ 64)
  -- a lease vacated in this cycle is not evicted in it (R165)
  let cand := arrays.filter fun x => !(live x).isEmpty && decide (r.prio < rank x) && !(live x).any Lease.vacNow
  let sorted := sortBy (fun x y => decide (rank y < rank x) || (rank x == rank y && decide (since x ≤ since y))) cand
  let dying := arrays.filter fun x => (live x).isEmpty
  let cost := leave r.cls
  let free := leaveFree c + (dying.map fun x => leave x.1).sum
  let inst := !(freeInsts c r.cls).isEmpty || dying.any fun x => x.1 == r.cls
  let go := sorted.foldl (fun (a : List (EngClass × Nat) × Nat × Bool) x =>
    if (decide (a.2.1 < cost)) || (!a.2.2 && x.1 == r.cls) then (a.1 ++ [x], a.2.1 + leave x.1, a.2.2 || x.1 == r.cls) else a)
    ([], free, inst)
  if decide (cost ≤ go.2.1) && go.2.2 then go.1 else []
/-- The request for which the cluster evicts, with its victims: one that has waited 10,000 ns and that the grants of this cycle
do not reach (R162, R165). -/
def evictFor (s : State) (cl : Nat) : Option (List (EngClass × Nat)) :=
  if !s.betweenCycles cl || !(waiting s cl).any (LReq.old s) then none
  else
    let s1 := if journalFull s then s else (afterGrants cl Config.leaseQueueCap s).1
    ((waiting s1 cl).filter (LReq.old s)).findSome? fun r =>
      match victims s1 cl r with
      | [] => none
      | l => some l
/-- LEASE_EVICTION. -/
def execLeaseEviction (s : State) : Out :=
  let cl := s.arg.cluster
  match evictFor s cl with
  | none => .next s
  | some l => .next ((s.cluster cl).leases.foldl (fun s e =>
      if l.contains (e.2.cls, e.2.inst) && e.2.holds then evictLease s cl e.1 false else s) s)

/-! ## Instructions (R266, R267) -/

/-- Words of the failing forms; an exhausted quota found first by this instruction traps after it, and the partition's queued requests
are withdrawn (R159, R390, R393). -/
def leaseFail (s sf : State) (h : SIdx) (code : Nat) : Out :=
  let sf := { sf with w := sf.w.wrS h (failWord code) }
  if code = 3 ∧ ¬ (quotaNew s s.w.id.part).isEmpty then
    trap (failQueued (quotaMark sf s.w.id.part) s.w.id.part).1 { code := 0x31, next := true }
  else finishS sf

def launchPrio (s : State) (w : Warp) : Nat := (s.launch w.id.lid).prio
/-- R157: a request in the queue holds its warp waiting. -/
def queuedLease (s : State) (w : Warp) : Bool := (s.cluster w.cluster).queue.any fun r => r.warp == w.key
/-- LEASE presents its request and waits for the grant (R157). -/
def execLease (_c : Ctl) (h : HIdx) (k : EngClass) (sh : Bool) (s : State) : Out :=
  if queuedLease s s.w then stall s .queue
  else gate { sdst := [hS h] } s fun s sf =>
    if leaseBarred s s.w.id.part then leaseFail s sf (hS h) 3
    else if Config.leaseQueueCap ≤ (s.cluster s.w.cluster).queue.length then stall s .queue
    else
      let r : LReq := ⟨s.w.key, hS h, k, sh, launchPrio s s.w, s.now, s.ilen, true⟩
      stall (s.modCluster s.w.cluster fun c => { c with queue := insertReq r c.queue }) .queue
/-- LEASET never queues: at the end of its cycle it is granted, after every waiting request, or fails (R159, R165); its destination is
pending until then. -/
def execLeaset (_c : Ctl) (h : HIdx) (k : EngClass) (sh : Bool) (s : State) : Out :=
  gate { sdst := [hS h] } s fun s sf =>
    if leaseBarred s s.w.id.part then leaseFail s sf (hS h) 3
    else
      let r : LReq := ⟨s.w.key, hS h, k, sh, launchPrio s s.w, s.now, s.ilen, true⟩
      finishS ({ sf with w := sf.w.pendS (hS h) s.w.p.pc }.modCluster s.w.cluster fun c => { c with tries := c.tries ++ [r] })

/-- R261: the engine-handle trap. -/
def handleTrap (s : State) (sub : Nat) : Out := trap s { code := 9, sub := sub }

/-- Commands of a lease that are issued and parked on their tiles (R88, R161). -/
def parkedCmds (s : State) (cl key : Nat) : Nat :=
  ((clusterWarps s cl).map fun w => (w.records.filter fun r => match r.k with
    | .cmd l _ => l == key
    | _ => false).length).sum
/-- R161, R165: an instance whose VACATING lease has no command left stops, and lingers in retention. -/
def vacateDue (s : State) (cl key : Nat) (l : Lease) : Bool :=
  -- convolutions queued at a CV lease that drive this one count as its commands
  l.st == .vacating && (onArray (s.cluster cl) key).isEmpty && l.queue.isEmpty && parkedCmds s cl key == 0
def vacateDone (s : State) (cl key : Nat) : State :=
  match s.lease? cl key with
  | none => s
  | some l =>
    if !vacateDue s cl key l then s
    else
      (s.dropLease cl key).modCluster cl fun c =>
        let c := { c with retained := c.retained ++ [⟨l.cls, l.inst, l.sh, l.lid, l.gang, s.now, l.eng, l.binding⟩] }
        if (contexts c l.cls l.inst).isEmpty then
          { c with retained := c.retained.map fun r => if r.cls == l.cls && r.inst == l.inst then { r with since := s.now } else r }
        else c
def execVacateComplete (s : State) : Out := .next (vacateDone s s.arg.cluster s.arg.key)

/-- R161, R267. -/
def execVacate (_c : Ctl) (h : HIdx) (s : State) : Out :=
  gate { ssrc := [(hS h, false)] } s fun s sf =>
    let key := (s.w.rdS (hS h)).toNat
    let cl := s.w.cluster
    match leaseOf s s.w (s.w.rdS (hS h)) with
    | none => handleTrap s 1
    | some l =>
      match l.st with
      | .vacating => handleTrap s 1
      | .evicted =>
        finishS (if l.stopping then sf.modLease cl key fun x => { x with gone := true } else sf.dropLease cl key)
      | _ => finishS (vacateDone (sf.modLease cl key fun x => { x with st := .vacating, vacNow := true }) cl key)
/-- R156, R267. -/
def execLstat (_c : Ctl) (d : SIdx) (h : HIdx) (s : State) : Out :=
  gate { ssrc := [(hS h, false)], sdst := [d] } s fun s sf =>
    let v := s.w.rdS (hS h)
    let l := leaseOf s s.w v
    let sf := if l.isSome then sf.modLease s.w.cluster v.toNat fun x => { x with aborted := false, poison := false } else sf
    finishS { sf with w := sf.w.wrS d (lstatWord s.now l) }

/-! ## Happenings -/

/-- R160: the wake latency has elapsed. -/
def execLeaseWake (s : State) : Out :=
  match s.lease? s.arg.cluster s.arg.key with
  | none => .next s
  | some l =>
    if l.st == .waking && decide (l.wakeAt ≤ s.now) then
      .next (s.modLease s.arg.cluster s.arg.key fun x => { x with st := .live })
    else .next s
/-- Commands that reached an engine already stopped end unwritten, each after the scratchpad writes that its issuer made before it
(R254, R268). -/
def endLosts (s : State) (cl : Nat) : State :=
  (s.cluster cl).lost.foldl (fun s q =>
    let s := flushBank s q.warp q.op
    if barBefore s q then s else endNow (s.modCluster cl fun c => { c with lost := c.lost.erase q }) cl q) s
/-- R163: the engine of an evicted lease stops. -/
def execEngineStop (s : State) : Out :=
  let cl := s.arg.cluster
  let s := endLosts s cl
  match s.lease? cl s.arg.key with
  | none => .next s
  | some l => .next (if l.st == .evicted && l.stopping then stopEngine s cl s.arg.key else s)
/-- R163: the engine stops within 500 ns of the decision. -/
def stopOverdue (s : State) (l : Lease) : Bool := l.stopping && decide (l.evictAt + Config.evictBound ≤ s.now)
/-- R161: the linger has ended: the state is lost and the instance sleeps. -/
def execRetentionExpiry (s : State) : Out :=
  .next (s.modCluster s.arg.cluster fun c => { c with retained := c.retained.filter fun r => kept s c r })

end Sys2Proof.Machine
end

