-- ==== Sys2Proof/Machine/Engine.lean ====
section
/-! DEFINITION. Engine commands (spec/12 R268 to R275, spec/07 R154, R166 to R171, spec/06 R139 to R141): their checks and issue, and their execution when they reach the head of their lease's queue. -/
namespace Sys2Proof.Machine

/-! ## Memory a command touches (R243, R261) -/

/-- A run of bytes a command reads or writes; lane 64 stands for none. -/
structure Span where
  want : Want
  sp : Bool
  lane : Nat
  addr : Nat
  len : Nat
  align : Nat
  deriving DecidableEq, Repr

/-- The pieces of a run that each lie in one 4 KiB page. -/
def pieces (a len : Nat) : List (Nat × Nat) :=
  (List.range ((a % 4096 + len + 4095) / 4096)).map fun i =>
    let lo := if i = 0 then a else (a / 4096 + i) * 4096
    (lo, min (a + len) ((a / 4096 + i + 1) * 4096) - lo)
def pieceAcc (s : State) (w : Warp) (x : Span) (p : Nat × Nat) : Except Nat Acc :=
  if x.sp then
    (if p.1 + p.2 ≤ 2 ^ 32 ∧ spMapped s w p.1 then .ok { lane := x.lane, va := p.1, addr := p.1, n := p.2 } else .error 0x04)
  else if 2 ^ 56 ≤ p.1 then .error 0x04
  else match translate s w x.want p.1 with
    | .fault c => .error c
    | .ok pa pte => .ok { lane := x.lane, va := p.1, addr := pa, n := p.2, dom := pteDom pte, lease := leaseNs pte,
                          home := homeOf pte pa, uncached := decide (pteHome pte = 3) }
/-- The pieces of every run, judged in order. -/
def spanAccs (s : State) (w : Warp) : List Span → List (List (Except Nat Acc))
  | [] => []
  | x :: l =>
    if x.sp then (pieces x.addr x.len).map (pieceAcc s w x) :: spanAccs s w l
    else
      let r := judge s w (fun s => pieceAcc s w x) (pieces x.addr x.len)
      r.2 :: spanAccs r.1 w l
/-- R261: alignment of every run, then the codes of R243 in their order. -/
def checkSpans (s : State) (w : Warp) (l : List Span) : Except TrapInfo (List (List Acc)) :=
  let mis := l.filter fun x => x.addr % x.align ≠ 0
  match mis with
  | x :: _ => .error { code := 6, taddr := x.addr % 2 ^ 56, tmask := maskOf 64 fun L => mis.any fun y => y.lane == L }
  | [] =>
    let rs := l.zip (spanAccs s w l)
    let bad := fun (c : Nat) (x : Span × List (Except Nat Acc)) =>
      (((pieces x.1.addr x.1.len).zip x.2).find? fun y => raises c y.2).map Prod.fst
    match [0x04, 0x05, 0x30, 0x22].find? fun c => rs.any fun x => (bad c x).isSome with
    | some c =>
      .error { code := c, tmask := maskOf 64 fun L => rs.any fun x => x.1.lane == L && (bad c x).isSome,
               taddr := ((rs.findSome? (bad c)).elim 0 fun p => p.1) % 2 ^ 56 }
    | none => .ok (rs.map fun x => x.2.filterMap Except.toOption)

/-- The bytes a piece reads now. -/
def pieceBytes (s : State) (core : Nat) (sp : Bool) (a : Acc) : List Byte :=
  if sp then (s.core core).sp.bytes a.addr a.n else readPhysBytes s a.dom a.addr a.n
def pieceBad (s : State) (core : Nat) (sp : Bool) (a : Acc) : Bool :=
  if sp then (s.core core).spPoison.any fun u => decide (a.addr < 8 * u + 8) && decide (8 * u < a.addr + a.n)
  else s.memPoison.any fun l => decide (a.addr < 64 * l + 64) && decide (64 * l < a.addr + a.n)
def spanBytes (s : State) (core : Nat) (sp : Bool) (l : List Acc) : List Byte := l.flatMap (pieceBytes s core sp)
/-- The writes of a piece, one a line (R130). -/
def lineAccs (a : Acc) (bs : List Byte) : List Acc :=
  (List.range ((a.addr % 64 + bs.length + 63) / 64)).map fun i =>
    let lo := if i = 0 then a.addr else (a.addr / 64 + i) * 64
    let hi := min (a.addr + bs.length) ((a.addr / 64 + i + 1) * 64)
    { a with va := a.va + (lo - a.addr), addr := lo, n := hi - lo, data := leVal ((bs.drop (lo - a.addr)).take (hi - lo)) }
/-- The pieces of a destination with their bytes. -/
def withBytes : List Acc → List Byte → List (Acc × List Byte)
  | [], _ => []
  | a :: l, bs => (a, bs.take a.n) :: withBytes l (bs.drop a.n)

/-! ## Issue (R261, R268) -/

/-- What the checks of a command give: the command, its memory, the names it reads and writes. -/
structure Plan where
  c : Cmd
  regs : List Word
  spans : List Span := []
  /-- how many of the spans are destinations, counted from the last before the barrier's. -/
  dsts : Nat := 0
  srcs : List Nat := []
  dst : Option Nat := none
  num : Nat := 0
  bar : Option (Nat × Nat) := none
  deriving DecidableEq, Repr

def barSpan (w : Warp) (r : SIdx) : Span := ⟨.load, true, 64, (w.rdS r).toNat, 16, 16⟩
def regsOf (w : Warp) (h : HIdx) (n : Nat) : List Word := (hRun h n).map fun r => w.rdS r.1

/-- R154, R155, R261: the lease a command goes to, or 0x09 HANDLE. -/
def cmdLease (s : State) (h : HIdx) (k : EngClass) : Option Lease :=
  (leaseOf s s.w (s.w.rdS (hS h))).filter fun l => l.cls == k && l.st != .vacating

/-- R261, steps 4 to 6, and acceptance: counted, queued or parked; on an evicted lease it ends unwritten at once. -/
def accept (s sf : State) (u : Use) (cls : Cls) (key : Nat) (l : Lease) (p : Plan) (eff : Lease → Lease) (mark : State → State) : Out :=
  let cl := s.w.cluster
  let spans := p.spans ++ (match p.bar with
    | some b => [⟨.load, true, 64, b.1, 16, 16⟩]
    | none => [])
  match checkSpans s s.w spans with
  | .error t => trap s t
  | .ok accs =>
    let ds := p.dst.map fun n => destVerdict (s.tile cl n) s.w
    match ds with
    | some (.fault x) => tileTrap s x
    | _ =>
      if p.srcs.any fun n => (s.tile cl n).st == .draining then tileTrap s 4
      else if l.st != .evicted && decide (Config.commandQueueCap ≤ l.queue.length + parkedCmds s cl key) then stall s .engine
      else
        let n := p.spans.length
        let sf := (spans.zip accs).foldl (fun s x => touch s x.1.sp x.2) sf
        let q : QCmd := {
          warp := s.w.key, op := s.w.opNext, seq := s.arrCtr, iss := s.arrCtr, c := p.c, regs := p.regs, src := (accs.take (n - p.dsts)).flatten,
          dst := ((accs.take n).drop (n - p.dsts)).flatten, num := p.num,
          tag := p.dst.elim 0 fun n => (s.tile cl n).defc, bar := p.bar }
        let o : Op := { id := 0, cls := cls, k := .cmd, pc := s.w.p.pc, name := key }
        let count := fun (x : State) => { x with w := addOp x.w o, arrCtr := x.arrCtr + 1 }
        let claim := fun (x : State) =>
          let x := match p.dst, ds with
            | some n, some .ok => x.modTile cl n fun t => { t with writes := t.writes + 1 }
            | _, _ => x
          mark (x.modLease cl key eff)
        if l.st == .evicted then finish (endLost (claim (count sf)) cl q) 4 0
        else
          let wait := p.srcs.filter fun n => (s.tile cl n).st != .ready
          let now := p.srcs.filter fun n => (s.tile cl n).st == .ready
          match wait with
          | [] =>
            let sf := claim (count sf)
            let sf := now.foldl (fun s n => s.modTile cl n fun t => { t with reads := t.reads + 1 }) sf
            finish (sf.enqueue cl key q) 4 0
          | n0 :: more =>
            let s1 := claim (count s)
            let s1 := now.foldl (fun s n => s.modTile cl n fun t => { t with reads := t.reads + 1 }) s1
            let s1 := more.foldl (fun s n => s.modTile cl n fun t => { t with parked := t.parked ++ [recId s.w.key s.w.pid] }) s1
            parkAt s1 s1.w n0 { name := n0, k := .cmd key q, need := wait, got := now, op := s.w.opNext, ilen := s.ilen,
                                frees := freed u.ssrc, vfrees := freed u.vsrc }

/-- The common path of a command: waits, exec, handle, and then its own checks. -/
def command (full : Bool) (k : EngClass) (cls : Cls) (h : HIdx) (n : Nat) (u : Use)
    (f : State → Lease → Except Nat Plan) (g : State → Lease → Lease) (ranges : Warp → Bool) (s : State)
    (mark : State → State → State := fun _ x => x) : Out :=
  unlessParked s <|
  if full && !s.w.full then trap s { code := 3 }
  else
    let u := { u with ssrc := u.ssrc ++ hRun h n, cls := some cls }
    gate u s fun s sf =>
      if !ranges s.w then tileTrap s 1
      else match cmdLease s h k with
        | none => handleTrap s 1
        | some l =>
          match f s l with
          | .error 6 => trap s { code := 6 }
          | .error x => handleTrap s x
          | .ok p => accept s sf u cls (s.w.rdS (hS h)).toNat l p (g s) (mark s)

def keepLease (_s : State) (l : Lease) : Lease := l
def noRange (_w : Warp) : Bool := true
def kCap (l : Lease) : Nat := if l.sh then 256 else 512
def nameAt (w : Warp) (t : TileRef) : Nat := (absName w t).getD 0

/-! ## Matrix commands (R269 to R273) -/

def execMxloadb (c : Ctl) (h : HIdx) (ta : TileRef) (kb : BitVec 4) (nb : BitVec 3) (f : BFmt) (s : State) : Out :=
  command true .mx .mx h 1 { ssrc := tileSrc ta (luA c) }
    (fun s l =>
      let ht := height (bBytes f)
      if kCap l < ht * kb.toNat + ht then .error 4
      else .ok { c := .loadb (nameAt s.w ta) kb.toNat nb.toNat f, regs := regsOf s.w h 1, srcs := [nameAt s.w ta] })
    (fun _ l => { l with eng := { l.eng with bfmt := some f } })
    (fun w => (absName w ta).isSome) s

/-- The relative names TA to TA + c − 1 all lie in the window. -/
def runNames (w : Warp) (t : TileRef) (n : Nat) : Bool :=
  match absName w t with
  | some a => decide (a + n ≤ w.id.tnbase + w.id.tncount)
  | none => false
def execMxrun (c : Ctl) (h : HIdx) (ta : TileRef) (cnt : BitVec 4) (r : BitVec 2) (f : AFmt) (s : State) : Out :=
  let n := cnt.toNat + 1
  command true .mx .mx h 2 { ssrc := tileSrc ta (luA c) }
    (fun s l =>
      let ks := ((s.w.rdS (hS h + 1)).extractLsb' 0 4).toNat
      if !pairs f l.eng.bfmt then .error 2
      else if kCap l < height (aBytes f) * (ks + n) then .error 4
      else
        let a := nameAt s.w ta
        .ok { c := .run a n r.toNat f, regs := regsOf s.w h 2, srcs := (List.range n).map fun i => a + i })
    keepLease (fun w => runNames w ta n) s

def execMxdrain (c : Ctl) (td : TileRef) (h : HIdx) (nb : BitVec 3) (r : BitVec 2) (z bar : Bool) (s : State) : Out :=
  command true .mx .mx h (if bar then 2 else 1) { ssrc := tileSrc td (luB c) }
    (fun s _ =>
      let n := nameAt s.w td
      .ok { c := .drain n r.toNat nb.toNat z bar, regs := regsOf s.w h 2, dst := some n,
            bar := if bar then some ((s.w.rdS (hS h + 1)).toNat, 1024) else none })
    keepLease (fun w => (absName w td).isSome) s
def execMxzero (_c : Ctl) (h : HIdx) (r : BitVec 2) (s : State) : Out :=
  command true .mx .mx h 1 {} (fun s _ => .ok { c := .zero r.toNat, regs := regsOf s.w h 1 }) keepLease noRange s

/-- R170: the MX lease a CV lease is bound to, while its handle is not INVALID. -/
def boundMx (s : State) (w : Warp) (l : Lease) : Option Lease :=
  (l.binding.bind fun k => leaseOf s w (BitVec.ofNat 64 k)).filter fun m => m.cls == .mx && m.st != .vacating
def execCvshape (_c : Ctl) (h : HIdx) (s : State) : Out :=
  command false .cv .mx h 4 {}
    (fun s _ =>
      let w := s.w
      let a := w.rdS (hS h + 2)
      let b := w.rdS (hS h + 3)
      match (leaseOf s w (w.rdS (hS h + 1))).filter fun m => m.cls == .mx && m.st != .vacating with
      | none => .error 1
      | some m => if shapeBad a b (kCap m) then .error 4 else .ok { c := .shape, regs := regsOf w h 4 })
    (fun s l => { l with
      binding := some (s.w.rdS (hS h + 1)).toNat,
      eng := { l.eng with shape := some (s.w.rdS (hS h + 2), s.w.rdS (hS h + 3)) } }) noRange s

/-- R273: the input extent: a run of CH elements for each pixel. -/
def convSpans (base : Nat) (x : Shape) (size : Nat) (sp : Bool) : List Span :=
  (List.range x.ih).flatMap fun y => (List.range x.iw).map fun i =>
    ⟨.load, sp, 64, (base + y * x.rowp + i * x.pix) % 2 ^ 64, x.ch * size, 1⟩
def execMxconv (_c : Ctl) (h : HIdx) (r : BitVec 2) (f : AFmt) (sp : Bool) (s : State) : Out :=
  command true .cv .mx h 2 {}
    (fun s l =>
      match boundMx s s.w l, l.eng.shape with
      | some m, some (a, b) =>
        if !pairs f m.eng.bfmt then .error 2
        else
          let x := shapeOf a b
          if x.pix < x.ch * aBytes f then .error 4
          else .ok { c := .conv r.toNat f sp, regs := regsOf s.w h 2 ++ [a, b, BitVec.ofNat 64 (l.binding.getD 0)],
                     spans := convSpans (s.w.rdS (hS h + 1)).toNat x (aBytes f) sp }
      | _, _ => .error 3)
    keepLease noRange s

/-! ## Data motion (R274) -/

/-- R274: 0x09 SHAPE for a length of 0 or beyond 2^24, 0x06 for one that is no multiple of 8. -/
def lenBad (v : Word) : Option Nat :=
  if v = 0 ∨ 2 ^ 24 < v.toNat then some 4 else if v.toNat % 8 ≠ 0 then some 6 else none
def barOf (w : Warp) (r : SIdx) (bar : Bool) (n : Nat) : Option (Nat × Nat) := if bar then some ((w.rdS r).toNat, n) else none

def execDmcopy (_c : Ctl) (h : HIdx) (k : DmCtl) (s : State) : Out :=
  command false .dm .dm h (if k.bar then 5 else 4) {}
    (fun s _ =>
      let w := s.w
      let len := w.rdS (hS h + 3)
      match lenBad len with
      | some x => .error x
      | none => .ok { c := .copy k, regs := regsOf w h 4,
                      spans := [⟨.load, k.sps, 64, (w.rdS (hS h + 1)).toNat, len.toNat, 8⟩, ⟨.store, k.spd, 64, (w.rdS (hS h + 2)).toNat, len.toNat, 8⟩],
                      dsts := 1, bar := barOf w (hS h + 4) k.bar len.toNat })
    keepLease noRange s
def execDmfill (_c : Ctl) (h : HIdx) (spd bar : Bool) (s : State) : Out :=
  command false .dm .dm h (if bar then 5 else 4) {}
    (fun s _ =>
      let w := s.w
      let len := w.rdS (hS h + 2)
      match lenBad len with
      | some x => .error x
      | none => .ok { c := .fill spd bar, regs := regsOf w h 4,
                      spans := [⟨.store, spd, 64, (w.rdS (hS h + 1)).toNat, len.toNat, 8⟩],
                      dsts := 1, bar := barOf w (hS h + 4) bar len.toNat })
    keepLease noRange s

/-- Active lanes in ascending order. -/
def actives (w : Warp) : List Nat := (List.range w.W).filter fun L => w.act 0 L
def idxAddr (base : Word) (v : Lane) : Nat := (base + v.signExtend 64).toNat
/-- DMGATHER and DMSCATTER do nothing at exec all zero (R260). -/
def execDmgather (c : Ctl) (h : HIdx) (v : VIdx) (n : BitVec 4) (k : DmCtl) (s : State) : Out :=
  if s.w.activeMask 0 = 0 then gate { vsrc := [(v, luC c)] } s fun _ sf => finishS sf
  else command false .dm .dm h (if k.bar then 4 else 3) { vsrc := [(v, luC c)] }
    (fun s _ =>
      let w := s.w
      let B := 8 * 2 ^ n.toNat
      let ls := actives w
      .ok { c := .gather (lanes w.W (w.lane v)) n.toNat k, regs := regsOf w h 3,
            spans := (ls.map fun L => ⟨.load, k.sps, L, idxAddr (w.rdS (hS h + 1)) (w.lane v L), B, 8⟩) ++
              ls.map fun L => ⟨.store, k.spd, L, (w.rdS (hS h + 2) + BitVec.ofNat 64 (L * B)).toNat, B, 8⟩,
            dsts := ls.length, bar := barOf w (hS h + 3) k.bar (B * ls.length) })
    keepLease noRange s
def execDmscatter (c : Ctl) (h : HIdx) (v : VIdx) (n : BitVec 4) (k : DmCtl) (s : State) : Out :=
  if s.w.activeMask 0 = 0 then gate { vsrc := [(v, luC c)] } s fun _ sf => finishS sf
  else command false .dm .dm h (if k.bar then 4 else 3) { vsrc := [(v, luC c)] }
    (fun s _ =>
      let w := s.w
      let B := 8 * 2 ^ n.toNat
      let ls := actives w
      .ok { c := .scatter (lanes w.W (w.lane v)) n.toNat k, regs := regsOf w h 3,
            spans := (ls.map fun L => ⟨.load, k.sps, L, (w.rdS (hS h + 1) + BitVec.ofNat 64 (L * B)).toNat, B, 8⟩) ++
              ls.map fun L => ⟨.store, k.spd, L, idxAddr (w.rdS (hS h + 2)) (w.lane v L), B, 8⟩,
            dsts := ls.length, bar := barOf w (hS h + 3) k.bar (B * ls.length) })
    keepLease noRange s

/-! ## Collectives (R171, R275) -/

def tagKey (w : Warp) (tag : Nat) : Nat := 256 * w.die + tag
/-- Another gang of the die owns the tag. -/
def tagTaken (s : State) (w : Warp) (tag : Nat) : Bool :=
  ((s.launch w.id.lid).tags.get? (tagKey w tag)).any fun x => x.1 != w.id.gang
def tagNum (s : State) (w : Warp) (tag : Nat) : Nat := (((s.launch w.id.lid).tags.get? (tagKey w tag)).map Prod.snd).getD 0
/-- R261, R275: a rank whose source the collective reads. -/
def readsSource (root : Bool) (w : Warp) (r : Word) : Bool := !root || r == BitVec.ofNat 64 w.id.rank
def nranks (s : State) (w : Warp) : Nat := max 1 (s.launch w.id.lid).ranks.length

/-- A collective's common checks and spans; `blocks` is the destination's length in units of the count. -/
def collective (h : HIdx) (tag : BitVec 8) (bar root : Bool) (cmd : Cmd) (blocks : State → Nat) (s : State) : Out :=
  let n := 4 + root.toNat
  command false .cl .cl h (n + bar.toNat) {}
    (fun s _ =>
      let w := s.w
      let cnt := w.rdS (hS h + 3)
      if cnt = 0 ∨ 2 ^ 26 < cnt.toNat then .error 4
      else if root && decide (nranks s w ≤ (w.rdS (hS h + 4)).toNat) then .error 4
      else if tagTaken s w tag.toNat then .error 5
      else
        let len := 4 * cnt.toNat * blocks s
        .ok { c := cmd, regs := regsOf w h n,
              spans := (if readsSource root w (w.rdS (hS h + 4)) then [⟨.load, false, 64, (w.rdS (hS h + 1)).toNat, 4 * cnt.toNat, 4⟩] else []) ++
                [⟨.store, false, 64, (w.rdS (hS h + 2)).toNat, len, 4⟩],
              dsts := 1, num := tagNum s w tag.toNat, bar := barOf w (hS h + BitVec.ofNat 7 n) bar len })
    keepLease noRange s
    -- a command that is counted takes its place among those of its tag
    (fun s x => x.modLaunch s.w.id.lid fun l => { l with tags := l.tags.put (tagKey s.w tag.toNat) (s.w.id.gang, tagNum s s.w tag.toNat + 1) })
def execClreduce (_c : Ctl) (h : HIdx) (tag : BitVec 8) (op : ClOp) (ty : ClTy) (bar : Bool) (s : State) : Out :=
  collective h tag bar false (.reduce tag.toNat op ty bar) (fun _ => 1) s
def execClgather (_c : Ctl) (h : HIdx) (tag : BitVec 8) (bar : Bool) (s : State) : Out :=
  collective h tag bar false (.gatherC tag.toNat bar) (fun s => nranks s s.w) s
def execClbcast (_c : Ctl) (h : HIdx) (tag : BitVec 8) (bar : Bool) (s : State) : Out :=
  collective h tag bar true (.bcast tag.toNat bar) (fun _ => 1) s

/-! ## Execution (R139, R140, R154, R160) -/

/-- The command leaves its lease's queue. -/
def popCmd (q : QCmd) : List QCmd → List QCmd
  | [] => []
  | y :: l => if y.op = q.op ∧ y.warp = q.warp then l else y :: l
/-- R346, R396: a command that read poisoned data ends unwritten; the lease keeps its state, with POISON set. The record names the first
poisoned piece it read from memory; a tile and the scratchpad have no physical address. -/
def failPoison (s : State) (cl key : Nat) (q : QCmd) (sp : Bool := false) : State :=
  let s := match q.src.find? (pieceBad s (q.warp / 32) sp) with
    | some a => memErr s ((s.warp? q.warp).getD {}) (if sp then 0 else a.addr) (if sp then 2 else 0) a.va 0
    | none => memErr s ((s.warp? q.warp).getD {}) 0 2 0 0
  endUnwritten (s.modLease cl key fun x => { x with poison := true, queue := popCmd q x.queue }) cl q

/-- The command has ended normally: its names, its barrier object, its counter. -/
def endWritten (s : State) (cl key : Nat) (q : QCmd) : State :=
  let s := s.modLease cl key fun x => { x with queue := popCmd q x.queue }
  let s := q.c.srcs.foldl (fun s n => s.tileReadDone cl n) s
  let s := barCredit s (q.warp / 32) q.bar false
  let s := s.modWarp q.warp fun w => w.complete q.op
  match s.lease? cl key with
  | some l => if l.st == .vacating && l.queue.isEmpty then s.post .vacateComplete { cluster := cl, key := key } else s
  | none => s
/-- The engine releases a command's memory writes at the command's end (R163): scratchpad takes them at once; writes to memory go to
their homes, where R130 applies them, and the command completes when they are visible (R140). -/
def release (s : State) (cl key : Nat) (q : QCmd) (spd : Bool) (bytes : List Byte) : State :=
  let ps := withBytes q.dst bytes
  if spd then endWritten (ps.foldl (fun s p => bankWrite s agentKey (q.warp / 32) p.1.addr p.2.length (leVal p.2)) s) cl key q
  else
    let s := s.modLease cl key fun x => { x with
      queue := x.queue.map fun y => if y.op = q.op ∧ y.warp = q.warp then { y with worked := true } else y }
    s.modWarp q.warp fun w => w.modOp q.op fun o => { o with k := .land cl q, accs := ps.flatMap fun p => lineAccs p.1 p.2 }
/-- A command whose writes have landed completes, after what its issuer wrote to the barrier object before it (R254). -/
def landDone (s : State) (k id : Nat) : State :=
  match s.warp? k with
  | none => s
  | some w =>
    match w.op? id with
    | none => s
    | some o =>
      match o.k with
      | .land cl q =>
        if o.done || !o.visible s w then s
        else
          let s := flushBank s k id
          if barBefore s q then s else endWritten s cl o.name q
      | _ => s
/-- WRITE_COMPLETE: of a warp's writes, a TSTORE, a command, an ASZREC. -/
def execWriteComplete (s : State) : Out :=
  let k := s.arg.warp
  let id := s.arg.op
  .next (aszDone (landDone (putDone (writeDone s k id) k id) k id) k id)

/-- A command on the array comes before a given one and has not ended: one that is queued, or one that is parked on its tile and issued
first into the same rows (R117, R168). -/
def earlierOnArray (s : State) (cl mx : Nat) (q : QCmd) : Bool :=
  ((onArray (s.cluster cl) mx).any fun y => y.before q) ||
  (clusterWarps s cl).any fun w => w.records.any fun r => match r.k with
    | .cmd l y => y.array l == mx && y.rowsFirst q
    | _ => false

/-- R274: bytes a data-motion command writes, in the order of its destination. -/
def dmBytes (s : State) (core : Nat) (q : QCmd) : List Byte :=
  match q.c with
  | .fill _ _ => (List.replicate ((q.dst.map Acc.n).sum / 8) (leBytes 8 (q.regs.getD 3 0).toNat)).flatten
  | .copy k | .gather _ _ k | .scatter _ _ k => spanBytes s core k.sps q.src
  | _ => []
def dmSpaces (c : Cmd) : Bool × Bool :=
  match c with
  | .copy k | .gather _ _ k | .scatter _ _ k => (k.sps, k.spd)
  | .fill spd _ => (false, spd)
  | _ => (false, false)

/-- R273: the A rows a convolution feeds, and whether some input it reads is poisoned. -/
def convFeed (s : State) (core : Nat) (q : QCmd) (f : AFmt) (sp : Bool) (pos : Nat) : Feed × Bool :=
  let x := shapeOf (q.regs.getD 2 0) (q.regs.getD 3 0)
  let base := (q.regs.getD 1 0).toNat
  let size := aBytes f
  let at' := fun (va : Nat) => q.src.find? fun a => decide (a.va ≤ va) && decide (va < a.va + a.n)
  let addr := fun (p : Nat × Nat × Nat) => (base + p.2.1 * x.rowp + p.1 * x.pix + p.2.2 * size) % 2 ^ 64
  let elem := fun (o κ : Nat) => match x.src o κ with
    | none => (0 : Int)
    | some p =>
      let v := leVal ((List.range size).map fun i => match at' (addr p + i) with
        | some a => ((pieceBytes s core sp { a with addr := a.addr + (addr p + i - a.va), n := 1 }).headD 0)
        | none => 0)
      if f == .i8 then sByte v else (v : Int)
  let bad := (List.range 16).any fun i => (List.range x.k).any fun κ => match x.src (pos + i) κ with
    | none => false
    | some p => match at' (addr p) with
      | some a => pieceBad s core sp { a with addr := a.addr + (addr p - a.va), n := size }
      | none => false
  ({ f := f, lo := 0, n := x.k, row := (List.range 16).map fun i => (List.range x.k).map fun κ => elem (pos + i) κ }, bad)

/-- The MX and CV commands at the head of their lease (R269 to R273). -/
def runArray (s : State) (cl key : Nat) (l : Lease) (q : QCmd) : State :=
  let core := q.warp / 32
  let bad := fun (n : Nat) => let t := s.tile cl n; !t.void && !t.poison.isEmpty
  match q.c with
  | .loadb n kb nb f =>
    if bad n then failPoison s cl key q
    else
      endWritten (chargeWork (s.modLease cl key fun x => { x with eng := loadPatch x.eng (s.tile cl n) kb nb f }) q) cl key q
  | .run n cnt r f =>
    if q.c.srcs.any bad then failPoison s cl key q
    else
      let ks := ((q.regs.getD 1 0).extractLsb' 0 4).toNat
      let x := tileFeed f ks ((List.range cnt).map fun i => s.tile cl (n + i))
      endWritten (chargeWork (s.modLease cl key fun y => { y with eng := runInto y.eng x r }) q) cl key q
  | .drain n r nb z _ =>
    let t := s.tile cl n
    let live := t.st == .filling && t.defc == q.tag
    let s := if live && !t.orphan then s.setTile cl n { t with data := t.data.put 0 (drainBytes l.eng r nb), poison := [] } else s
    let s := if z then s.modLease cl key fun x => { x with eng := drainClear x.eng r nb } else s
    let s := endWritten (chargeWork s q) cl key q
    if live then s.tileWriteDone cl n else s
  | .zero r => endWritten (s.modLease cl key fun x => { x with eng := zeroRows x.eng r }) cl key q
  | .shape => endWritten (s.modLease cl key fun x => { x with eng := { x.eng with pos := 0 } }) cl key q
  | .conv r f sp =>
    let mk := (q.regs.getD 4 0).toNat
    match s.lease? cl mk with
    | none => endUnwritten (s.modLease cl key fun x => { x with queue := popCmd q x.queue }) cl q
    | some m =>
      if m.st == .evicted then endUnwritten (s.modLease cl key fun x => { x with queue := popCmd q x.queue }) cl q
      else if decide (s.now < m.wakeAt) || earlierOnArray s cl mk q then s
      else
        let x := convFeed s core q f sp l.eng.pos
        if x.2 then failPoison s cl key q sp
        else
          let s := s.modLease cl mk fun y => { y with eng := runInto y.eng x.1 r }
          let s := s.modLease cl key fun y => { y with eng := { y.eng with pos := y.eng.pos + 16 } }
          let s := endWritten (chargeWork s q) cl key q
          s.post .vacateComplete { cluster := cl, key := mk }
  | _ => s

/-- A data-motion command runs to its end (R274). -/
def runMemory (s : State) (cl key : Nat) (q : QCmd) (sps spd : Bool) (bytes : List Byte) : State :=
  if q.src.any (pieceBad s (q.warp / 32) sps) then failPoison s cl key q sps
  else release (chargeWork s q) cl key q spd bytes

/-! ### Collectives -/

/-- The combination of two elements (R275). -/
def clCombine (o : ClOp) (t : ClTy) (a b : Lane) : Lane :=
  match t, o with
  | .f32, .sum => BitVec.ofNat 32 (f32.add .rn a.toNat b.toNat).1
  | .f32, .min => BitVec.ofNat 32 (f32.minmax false a.toNat b.toNat).1
  | .f32, .max => BitVec.ofNat 32 (f32.minmax true a.toNat b.toNat).1
  | _, .sum => a + b
  | .i32, .min => minS a b
  | .i32, .max => maxS a b
  | .n32, .min => minU a b
  | .n32, .max => maxU a b
def elems (bs : List Byte) (n : Nat) : List Lane := (List.range n).map fun i => BitVec.ofNat 32 (leVal ((bs.drop (4 * i)).take 4))
/-- Form, operation, type, count and root agree (R275); the barrier is each rank's own. -/
def clSame (a b : QCmd) : Bool :=
  (match a.c, b.c with
   | .reduce t o y _, .reduce u p z _ => t == u && o == p && y == z
   | .gatherC t _, .gatherC u _ => t == u
   | .bcast t _, .bcast u _ => t == u && a.regs.getD 4 0 == b.regs.getD 4 0
   | _, _ => false) && a.regs.getD 3 0 == b.regs.getD 3 0

/-- The command of a rank of the launch in this package that takes part in the collective of q: cluster, lease, command. -/
def partner (s : State) (lid : Word) (q : QCmd) (die : Nat) : Option (Nat × Nat × QCmd) :=
  (s.clusters.filter fun c => c.1 / 8 == die).findSome? fun c => c.2.leases.findSome? fun e =>
    if e.2.lid != lid || e.2.cls != .cl || e.2.st == .evicted || decide (s.now < e.2.wakeAt) then none
    else match e.2.queue with
      | x :: _ => if x.c.tag == q.c.tag && x.num == q.num && !x.worked && !x.aborted then some (c.1, e.1, x) else none
      | [] => none
/-- R171, R275: a command of a collective that cannot be formed ends unwritten, with ABORTED in LSTAT. -/
def abortCollective (s : State) (m : Nat × Nat × QCmd) : State :=
  endUnwritten (s.modLease m.1 m.2.1 fun x => { x with aborted := true, queue := popCmd m.2.2 x.queue }) m.1 m.2.2

/-- What every rank's destination receives, from the sources in ascending rank (R275). -/
def clResult (q : QCmd) (srcs : List (List Byte)) : List Byte :=
  let n := (q.regs.getD 3 0).toNat
  match q.c with
  | .reduce _ o t _ =>
    match srcs.map fun b => elems b n with
    | [] => []
    | x :: l => (l.foldl (fun (a : List Lane) b => (a.zip b).map fun p => clCombine o t p.1 p.2) x).flatMap fun v => leBytes 4 v.toNat
  | .gatherC _ _ => srcs.flatten
  | .bcast _ _ => srcs.getD (q.regs.getD 4 0).toNat []
  | _ => []

/-- The ranks of the launch with their dies; a launch without a table has one (R388). -/
def ranksOf (s : State) (lid : Word) (die : Nat) : List (Nat × Bool) :=
  match (s.launch lid).ranks with
  | [] => [(die, true)]
  | l => l.map fun r => (r.die, r.pkg == s.io.ident.furid)
/-- R392: the bytes that still fit what is left of the window; a window with a wait is marked. -/
def furlongRoom (s : State) (pid : Nat) : Nat := (s.part pid).furlong.limit - (s.part pid).furlong.used
def furlongWait (s : State) (pid : Nat) : State := s.modPart pid fun p => { p with qexh := p.qexh ||| (1#5 <<< 4) }
/-- What a send leaves: the window's bytes, and packets on ports of the die that are up, in a number the spec does not give. -/
def furlongSend (s : State) (die pid n : Nat) : State :=
  if n = 0 then s
  else
    let s1 := s.modPart pid fun p => { p with furlong := { p.furlong with used := p.furlong.used + n } }
    let ports := s.io.ports.mapVals fun k x =>
      if k / 6 = die ∧ 2 ≤ x.state then
        { x with txseq := (x.txseq + (Config.freeValue (s.freeCtr + k)).toNat % 2 ^ 32) % 2 ^ 64 } else x
    { s1 with io := { s1.io with ports := ports }, freeCtr := s.freeCtr + 36 }
/-- R388: the packets of the ranks in other packages, whose GROUPID and NRANKS stand in the happening's list, belong to the launch's
process group. -/
def sameGroup (s : State) (lid : Word) (rs : List (Nat × Bool)) : Bool :=
  let l := s.launch lid
  (s.arg.list.drop (2 * (rs.filter fun r => !r.2).length)).isEmpty &&
  (List.range (rs.filter fun r => !r.2).length).all fun i =>
    s.arg.list.getD (2 * i) 0 == l.groupid && s.arg.list.getD (2 * i + 1) 0 == rs.length
/-- R382: packets that arrive at another die of the package, 1 + its number in the happening's `sel`, cross its link to the die they are
for. A link without FUR refuses them: the die that checked logs the address (log 19). -/
def arrivalRefused (s : State) (die : Nat) : Option (Nat × Nat) :=
  if s.arg.sel = 0 ∨ s.arg.sel = die + 1 then none
  else match s.parts.find? fun p => p.2.dies.contains (s.arg.sel - 1) with
    | none => none
    | some p => if (linkAllows p.2 (s.arg.sel - 1) die).getLsbD 3 then none else some (p.1, 4 * p.1 + p.2.cur)
/-- Every participant of a collective in this package that waits at the head of its lease. -/
def participants (s : State) (cl : Nat) (q : QCmd) : List (Option (Nat × Nat × QCmd)) :=
  let w := (s.warp? q.warp).getD {}
  (ranksOf s w.id.lid (cl / 8)).filterMap fun r => if r.2 then some (partner s w.id.lid q r.1) else none
/-- A collective with every rank's command there: all take effect together. The sources of ranks in other packages come over
Furlong and are the happening's operand, in ascending rank. What does not fit the window is sent in the next (R392). -/
def runCollective (s : State) (cl key : Nat) (q : QCmd) : State :=
  let w := (s.warp? q.warp).getD {}
  let rs := ranksOf s w.id.lid (cl / 8)
  let far := !rs.all fun r => r.2
  let here := participants s cl q
  if (s.launch w.id.lid).dead.contains (q.c.tag.getD 0, q.num) then abortCollective s (cl, key, q)
  else if here.any Option.isNone then s
  else
    let ps := here.filterMap id
    let bad := fun (p : Nat × Nat × QCmd) => p.2.2.src.any (pieceBad s (p.2.2.warp / 32) false)
    if (ps.any fun p => !clSame p.2.2 q) || (far && !sameGroup s w.id.lid rs) then ps.foldl abortCollective s
    else if ps.any bad then ps.foldl (fun s p => if bad p then failPoison s p.1 p.2.1 p.2.2 else abortCollective s p) s
    else match if far then arrivalRefused s (cl / 8) else none with
    | some x => ps.foldl abortCollective (violation s x.1 x.2 (cl / 8) (q.dst.head?.elim 0 Acc.addr) 2)
    | none =>
      let n := 4 * (q.regs.getD 3 0).toNat
      let sent := if far then n * ps.length - (ps.map fun p => p.2.2.sent).sum else 0
      if furlongRoom s w.id.part < sent then
        let room := furlongRoom s w.id.part
        let s := s.modLease cl key fun x => { x with queue := x.queue.map fun y => if y.seq == q.seq then { y with sent := y.sent + room } else y }
        furlongSend (furlongWait s w.id.part) w.die w.id.part room
      else
        let srcs := (rs.foldl (fun (a : List (List Byte) × List (Nat × Nat × QCmd) × List Byte) r =>
          if r.2 then
            match a.2.1 with
            | p :: l => (a.1 ++ [spanBytes s (p.2.2.warp / 32) false p.2.2.src], l, a.2.2)
            | [] => a
          else (a.1 ++ [a.2.2.take n], a.2.1, a.2.2.drop n)) (([] : List (List Byte)), ps, s.arg.bytes)).1
        (furlongSend · w.die w.id.part sent) <| ps.foldl (fun s p =>
          release (chargeWork s p.2.2) p.1 p.2.1 p.2.2 false (clResult p.2.2 srcs)) s

/-- An aborted command stops at its tile boundary and ends unwritten (R338). -/
def runAborted (s : State) (cl key : Nat) (q : QCmd) : State :=
  endUnwritten (dropRows (chargePart (s.modLease cl key fun x => { x with queue := popCmd q x.queue }) q) cl key q) cl q
/-- R382: the die that a command's packets were for refused them: a collective ends as an aborted one here as at its peers, a DM command
ends unwritten, with EVB at its barrier object. -/
def sendRefused (s : State) (cl key : Nat) (l : Lease) (q : QCmd) : State :=
  match l.cls with
  | .cl => ((participants s cl q).filterMap id).foldl abortCollective s
  | .dm => endUnwritten (chargePart (s.modLease cl key fun x => { x with queue := popCmd q x.queue }) q) cl q
  | _ => s
/-- The command at the head of an awake lease runs (R154, R160), unless its writes are on their way. The credit of its barrier
object comes after what its issuer wrote to the bank before it (R254). -/
def runHead (s : State) (cl key : Nat) : State :=
  match s.lease? cl key with
  | none => s
  | some l =>
    if l.st == .evicted || decide (s.now < l.wakeAt) then s
    else match l.queue with
      | [] => s
      | q :: _ =>
        if q.worked then s
        else if q.aborted then runAborted s cl key q
        else if !s.arg.ok then sendRefused s cl key l q
        else
          let s := if q.bar.isSome then flushBank s q.warp q.op else s
          if barBefore s q then s
          else match q.c with
          | .copy _ | .gather _ _ _ | .scatter _ _ _ | .fill _ _ =>
            runMemory s cl key q (dmSpaces q.c).1 (dmSpaces q.c).2 (dmBytes s (q.warp / 32) q)
          | .reduce _ _ _ _ | .gatherC _ _ | .bcast _ _ => runCollective s cl key q
          | .conv _ _ _ | .shape => runArray s cl key l q
          | _ => if earlierOnArray s cl key q then s else runArray s cl key l q
def execEngineCommandComplete (s : State) : Out := .next (runHead s s.arg.cluster s.arg.key)

/-- COLLECTIVE_ABORT (R171): a peer's lease was lost, or its command disagrees: the command at the head of the lease ends
unwritten and ABORTED is set. -/
def execCollectiveAbort (s : State) : Out :=
  match s.lease? s.arg.cluster s.arg.key with
  | none => .next s
  | some l =>
    match l.queue with
    | [] => .next s
    | q :: _ =>
      if l.cls == .cl && l.st != .evicted && !q.worked then .next (abortCollective s (s.arg.cluster, s.arg.key, q)) else .next s

/-- ENGINE_SRAM_ERROR (R346): an uncorrectable error in an engine's own SRAM: the running command ends unwritten, the lease is
EVICTED with its state lost, and POISON shows in LSTAT. -/
def execEngineSramError (s : State) : Out :=
  let cl := s.arg.cluster
  let key := s.arg.key
  match s.lease? cl key with
  | none => .next s
  | some l =>
    if l.st == .evicted || decide (s.now < l.wakeAt) then .next s
    else
      let s := journal (s.countOn l.vdev cl 13) 0xB l.part l.vdev [0, 3, l.part, 0, 0]
      .next (stopEngine (s.modLease cl key fun x => { x with
        st := .evicted, stopping := true, evictAt := s.now, poison := true, gone := l.st == .vacating }) cl key)

end Sys2Proof.Machine
end

