-- ==== Sys2Proof/Machine/Fields.lean ====
section
/-! DEFINITION. Which fields of an instruction name vector registers, and what a dictionary code's rebasing makes of them (spec/08 R180, R184; spec/12 R277). -/
namespace Sys2Proof.Machine

def memFields (m : MemV) : List VIdx := m.idx.toList
def memRebase (k : VIdx) (m : MemV) : MemV := { m with idx := m.idx.map fun r => r + k }
def vmovFields (f : VMovForm) : List VIdx := match f with
  | .vv d a => [d, a]
  | .bv _ a => [a]
  | .vb d _ => [d]
def vmovDest (f : VMovForm) : List VIdx := match f with
  | .vv d _ => [d]
  | .bv _ _ => []
  | .vb d _ => [d]
def vmovRebase (k : VIdx) (f : VMovForm) : VMovForm := match f with
  | .vv d a => .vv (d + k) (a + k)
  | .bv d a => .bv d (a + k)
  | .vb d a => .vb (d + k) a
def vsFields (x : VOrS) : List VIdx := match x with
  | .v r => [r]
  | .s _ => []
def vsRebase (k : VIdx) (x : VOrS) : VOrS := match x with
  | .v r => .v (r + k)
  | .s r => .s r
def scaccFields (x : ScaccA) : List VIdx := match x with
  | .v r => [r]
  | .tile _ _ => []
def scaccRebase (k : VIdx) (x : ScaccA) : ScaccA := match x with
  | .v r => .v (r + k)
  | .tile s r => .tile s r

/-- Every vector register an instruction names. -/
def vfields (i : Instr) : List VIdx :=
  match i with
  | .vadd _ d a b _ _ => [d] ++ [a] ++ [b]
  | .vsub _ d a b _ _ => [d] ++ [a] ++ [b]
  | .vmul _ d a b _ => [d] ++ [a] ++ [b]
  | .vmulh _ d a b _ _ => [d] ++ [a] ++ [b]
  | .vmad _ d a b cc _ => [d] ++ [a] ++ [b] ++ [cc]
  | .vand _ d a b _ => [d] ++ [a] ++ [b]
  | .vor _ d a b _ => [d] ++ [a] ++ [b]
  | .vxor _ d a b _ => [d] ++ [a] ++ [b]
  | .vshl _ d a b _ => [d] ++ [a] ++ [b]
  | .vshr _ d a b _ => [d] ++ [a] ++ [b]
  | .vsra _ d a b _ => [d] ++ [a] ++ [b]
  | .vmin _ d a b _ => [d] ++ [a] ++ [b]
  | .vmax _ d a b _ => [d] ++ [a] ++ [b]
  | .vminn _ d a b _ => [d] ++ [a] ++ [b]
  | .vmaxn _ d a b _ => [d] ++ [a] ++ [b]
  | .vabs _ d a _ _ => [d] ++ [a]
  | .vneg _ d a _ _ => [d] ++ [a]
  | .vclz _ d a _ => [d] ++ [a]
  | .vpopc _ d a _ => [d] ++ [a]
  | .vcmp _ _ a b _ _ => [a] ++ [b]
  | .vsel _ d a b _ _ => [d] ++ [a] ++ [b]
  | .vmov _ f _ => vmovFields f
  | .vlane _ d _ => [d]
  | .vaddi _ d a _ _ => [d] ++ [a]
  | .vandi _ d a _ _ => [d] ++ [a]
  | .vori _ d a _ _ => [d] ++ [a]
  | .vxori _ d a _ _ => [d] ++ [a]
  | .vshli _ d a _ _ => [d] ++ [a]
  | .vshri _ d a _ _ => [d] ++ [a]
  | .vsrai _ d a _ _ => [d] ++ [a]
  | .vmovi _ d _ _ => [d]
  | .vcmpi _ _ a _ _ _ => [a]
  | .fadd _ d a b _ _ => [d] ++ [a] ++ [b]
  | .fsub _ d a b _ _ => [d] ++ [a] ++ [b]
  | .fmul _ d a b _ _ => [d] ++ [a] ++ [b]
  | .ffma _ d a b cc _ _ => [d] ++ [a] ++ [b] ++ [cc]
  | .fmin _ d a b _ => [d] ++ [a] ++ [b]
  | .fmax _ d a b _ => [d] ++ [a] ++ [b]
  | .fabs _ d a _ => [d] ++ [a]
  | .fneg _ d a _ => [d] ++ [a]
  | .fcmp _ _ a b _ _ => [a] ++ [b]
  | .fclass _ d a _ => [d] ++ [a]
  | .fdiv _ d a b _ _ => [d] ++ [a] ++ [b]
  | .fsqrt _ d a _ _ => [d] ++ [a]
  | .frcp _ d a _ => [d] ++ [a]
  | .frsq _ d a _ => [d] ++ [a]
  | .fexp2 _ d a _ => [d] ++ [a]
  | .flog2 _ d a _ => [d] ++ [a]
  | .fsin _ d a _ => [d] ++ [a]
  | .fcos _ d a _ => [d] ++ [a]
  | .fscale _ d a b _ _ => [d] ++ [a] ++ [b]
  | .ftanh _ d a _ => [d] ++ [a]
  | .hfma2 _ d a b cc _ _ _ => [d] ++ [a] ++ [b] ++ [cc]
  | .hadd2 _ d a b _ _ _ => [d] ++ [a] ++ [b]
  | .hmul2 _ d a b _ _ _ => [d] ++ [a] ++ [b]
  | .scacc _ d a b cc _ => [d] ++ scaccFields a ++ vsFields b ++ vsFields cc
  | .cvt _ d a _ _ _ _ => [d] ++ [a]
  | .pack _ d a b _ _ _ _ => [d] ++ [a] ++ [b]
  | .unpack _ d a _ _ _ => [d] ++ [a]
  | .shfl _ d a b _ _ _ => [d] ++ [a] ++ [b]
  | .shflup _ d a _ _ _ _ => [d] ++ [a]
  | .shfldn _ d a _ _ _ _ => [d] ++ [a]
  | .shflx _ d a _ _ _ _ => [d] ++ [a]
  | .bcast _ d a _ _ _ _ => [d] ++ [a]
  | .vredadd _ d a _ _ => [d] ++ [a]
  | .vredmin _ d a _ _ _ => [d] ++ [a]
  | .vredmax _ d a _ _ _ => [d] ++ [a]
  | .fredadd _ d a _ _ _ => [d] ++ [a]
  | .fredmin _ d a _ _ => [d] ++ [a]
  | .fredmax _ d a _ _ => [d] ++ [a]
  | .vscan _ d a _ _ _ => [d] ++ [a]
  | .fscan _ d a _ _ _ _ => [d] ++ [a]
  | .vfroms _ d _ _ => [d]
  | .vtos _ _ a _ _ _ => [a]
  | .vins _ d _ _ _ => [d]
  | .ld _ d m w => (if w == .w64 then [d, d + 1] else [d]) ++ memFields m
  | .st _ d m w => (if w == .w64 then [d, d + 1] else [d]) ++ memFields m
  | .pref _ m _ => memFields m
  | .atomAdd _ d m _ => [d] ++ memFields m
  | .atomSub _ d m _ => [d] ++ memFields m
  | .atomAnd _ d m _ => [d] ++ memFields m
  | .atomOr _ d m _ => [d] ++ memFields m
  | .atomXor _ d m _ => [d] ++ memFields m
  | .atomMin _ d m _ => [d] ++ memFields m
  | .atomMax _ d m _ => [d] ++ memFields m
  | .atomMinn _ d m _ => [d] ++ memFields m
  | .atomMaxn _ d m _ => [d] ++ memFields m
  | .atomXchg _ d m _ => [d] ++ memFields m
  | .atomCas _ d m _ => [d] ++ memFields m
  | .redAdd _ d m _ => [d] ++ memFields m
  | .redSub _ d m _ => [d] ++ memFields m
  | .redAnd _ d m _ => [d] ++ memFields m
  | .redOr _ d m _ => [d] ++ memFields m
  | .redXor _ d m _ => [d] ++ memFields m
  | .redMin _ d m _ => [d] ++ memFields m
  | .redMax _ d m _ => [d] ++ memFields m
  | .redMinn _ d m _ => [d] ++ memFields m
  | .redMaxn _ d m _ => [d] ++ memFields m
  | .fatomAdd _ d m => [d] ++ memFields m
  | .fatomMin _ d m => [d] ++ memFields m
  | .fatomMax _ d m => [d] ++ memFields m
  | .fredAdd _ d m => [d] ++ memFields m
  | .fredMin _ d m => [d] ++ memFields m
  | .fredMax _ d m => [d] ++ memFields m
  | .twrite _ _ v _ => [v]
  | .tread _ v _ _ => [v]
  | .dmgather _ _ v _ _ => [v]
  | .dmscatter _ _ v _ _ => [v]
  | .passx _ _ _ _ q => q.toList
  | .calli _ v _ => [v]
  | .inv _ o => [o.x, o.x + 1, o.y, o.tgt]
  | _ => []

/-- The vector registers it writes. -/
def vdests (i : Instr) : List VIdx :=
  match i with
  | .vadd _ d _ _ _ _ => [d]
  | .vsub _ d _ _ _ _ => [d]
  | .vmul _ d _ _ _ => [d]
  | .vmulh _ d _ _ _ _ => [d]
  | .vmad _ d _ _ _ _ => [d]
  | .vand _ d _ _ _ => [d]
  | .vor _ d _ _ _ => [d]
  | .vxor _ d _ _ _ => [d]
  | .vshl _ d _ _ _ => [d]
  | .vshr _ d _ _ _ => [d]
  | .vsra _ d _ _ _ => [d]
  | .vmin _ d _ _ _ => [d]
  | .vmax _ d _ _ _ => [d]
  | .vminn _ d _ _ _ => [d]
  | .vmaxn _ d _ _ _ => [d]
  | .vabs _ d _ _ _ => [d]
  | .vneg _ d _ _ _ => [d]
  | .vclz _ d _ _ => [d]
  | .vpopc _ d _ _ => [d]
  | .vsel _ d _ _ _ _ => [d]
  | .vmov _ f _ => vmovDest f
  | .vlane _ d _ => [d]
  | .vaddi _ d _ _ _ => [d]
  | .vandi _ d _ _ _ => [d]
  | .vori _ d _ _ _ => [d]
  | .vxori _ d _ _ _ => [d]
  | .vshli _ d _ _ _ => [d]
  | .vshri _ d _ _ _ => [d]
  | .vsrai _ d _ _ _ => [d]
  | .vmovi _ d _ _ => [d]
  | .fadd _ d _ _ _ _ => [d]
  | .fsub _ d _ _ _ _ => [d]
  | .fmul _ d _ _ _ _ => [d]
  | .ffma _ d _ _ _ _ _ => [d]
  | .fmin _ d _ _ _ => [d]
  | .fmax _ d _ _ _ => [d]
  | .fabs _ d _ _ => [d]
  | .fneg _ d _ _ => [d]
  | .fclass _ d _ _ => [d]
  | .fdiv _ d _ _ _ _ => [d]
  | .fsqrt _ d _ _ _ => [d]
  | .frcp _ d _ _ => [d]
  | .frsq _ d _ _ => [d]
  | .fexp2 _ d _ _ => [d]
  | .flog2 _ d _ _ => [d]
  | .fsin _ d _ _ => [d]
  | .fcos _ d _ _ => [d]
  | .fscale _ d _ _ _ _ => [d]
  | .ftanh _ d _ _ => [d]
  | .hfma2 _ d _ _ _ _ _ _ => [d]
  | .hadd2 _ d _ _ _ _ _ => [d]
  | .hmul2 _ d _ _ _ _ _ => [d]
  | .scacc _ d _ _ _ _ => [d]
  | .cvt _ d _ _ _ _ _ => [d]
  | .pack _ d _ _ _ _ _ _ => [d]
  | .unpack _ d _ _ _ _ => [d]
  | .shfl _ d _ _ _ _ _ => [d]
  | .shflup _ d _ _ _ _ _ => [d]
  | .shfldn _ d _ _ _ _ _ => [d]
  | .shflx _ d _ _ _ _ _ => [d]
  | .bcast _ d _ _ _ _ _ => [d]
  | .vredadd _ d _ _ _ => [d]
  | .vredmin _ d _ _ _ _ => [d]
  | .vredmax _ d _ _ _ _ => [d]
  | .fredadd _ d _ _ _ _ => [d]
  | .fredmin _ d _ _ _ => [d]
  | .fredmax _ d _ _ _ => [d]
  | .vscan _ d _ _ _ _ => [d]
  | .fscan _ d _ _ _ _ _ => [d]
  | .vfroms _ d _ _ => [d]
  | .vins _ d _ _ _ => [d]
  | .ld _ d _ w => (if w == .w64 then [d, d + 1] else [d])
  | .atomAdd _ d _ _ => [d]
  | .atomSub _ d _ _ => [d]
  | .atomAnd _ d _ _ => [d]
  | .atomOr _ d _ _ => [d]
  | .atomXor _ d _ _ => [d]
  | .atomMin _ d _ _ => [d]
  | .atomMax _ d _ _ => [d]
  | .atomMinn _ d _ _ => [d]
  | .atomMaxn _ d _ _ => [d]
  | .atomXchg _ d _ _ => [d]
  | .atomCas _ d _ _ => [d]
  | .fatomAdd _ d _ => [d]
  | .fatomMin _ d _ => [d]
  | .fatomMax _ d _ => [d]
  | .tread _ v _ _ => [v]
  | _ => []

/-- The mask register it writes. -/
def mdest (i : Instr) : Option MIdx :=
  match i with
  | .vcmp _ d _ _ _ _ => some d
  | .vcmpi _ d _ _ _ _ => some d
  | .fcmp _ d _ _ _ _ => some d
  | .mand _ d _ _ => some d
  | .mor _ d _ _ => some d
  | .mxor _ d _ _ => some d
  | .mandn _ d _ _ => some d
  | .mnot _ d _ => some d
  | .mmov _ d _ => some d
  | .mfroms _ d _ => some d
  | _ => none

/-- R184: every vector-register field increased by by8 modulo 256; an absent index stays absent. -/
def rebase (by8 : VIdx) (i : Instr) : Instr :=
  match i with
  | .vadd c d a b ms m => .vadd c (d + by8) (a + by8) (b + by8) ms m
  | .vsub c d a b ms m => .vsub c (d + by8) (a + by8) (b + by8) ms m
  | .vmul c d a b ms => .vmul c (d + by8) (a + by8) (b + by8) ms
  | .vmulh c d a b ms u => .vmulh c (d + by8) (a + by8) (b + by8) ms u
  | .vmad c d a b cc ms => .vmad c (d + by8) (a + by8) (b + by8) (cc + by8) ms
  | .vand c d a b ms => .vand c (d + by8) (a + by8) (b + by8) ms
  | .vor c d a b ms => .vor c (d + by8) (a + by8) (b + by8) ms
  | .vxor c d a b ms => .vxor c (d + by8) (a + by8) (b + by8) ms
  | .vshl c d a b ms => .vshl c (d + by8) (a + by8) (b + by8) ms
  | .vshr c d a b ms => .vshr c (d + by8) (a + by8) (b + by8) ms
  | .vsra c d a b ms => .vsra c (d + by8) (a + by8) (b + by8) ms
  | .vmin c d a b ms => .vmin c (d + by8) (a + by8) (b + by8) ms
  | .vmax c d a b ms => .vmax c (d + by8) (a + by8) (b + by8) ms
  | .vminn c d a b ms => .vminn c (d + by8) (a + by8) (b + by8) ms
  | .vmaxn c d a b ms => .vmaxn c (d + by8) (a + by8) (b + by8) ms
  | .vabs c d a ms m => .vabs c (d + by8) (a + by8) ms m
  | .vneg c d a ms m => .vneg c (d + by8) (a + by8) ms m
  | .vclz c d a ms => .vclz c (d + by8) (a + by8) ms
  | .vpopc c d a ms => .vpopc c (d + by8) (a + by8) ms
  | .vcmp c d a b ms p => .vcmp c d (a + by8) (b + by8) ms p
  | .vsel c d a b cc ms => .vsel c (d + by8) (a + by8) (b + by8) cc ms
  | .vmov c f ms => .vmov c (vmovRebase by8 f) ms
  | .vlane c d ms => .vlane c (d + by8) ms
  | .vaddi c d a ms imm => .vaddi c (d + by8) (a + by8) ms imm
  | .vandi c d a ms imm => .vandi c (d + by8) (a + by8) ms imm
  | .vori c d a ms imm => .vori c (d + by8) (a + by8) ms imm
  | .vxori c d a ms imm => .vxori c (d + by8) (a + by8) ms imm
  | .vshli c d a ms n => .vshli c (d + by8) (a + by8) ms n
  | .vshri c d a ms n => .vshri c (d + by8) (a + by8) ms n
  | .vsrai c d a ms n => .vsrai c (d + by8) (a + by8) ms n
  | .vmovi c d ms imm => .vmovi c (d + by8) ms imm
  | .vcmpi c d a ms p imm => .vcmpi c d (a + by8) ms p imm
  | .fadd c d a b ms r => .fadd c (d + by8) (a + by8) (b + by8) ms r
  | .fsub c d a b ms r => .fsub c (d + by8) (a + by8) (b + by8) ms r
  | .fmul c d a b ms r => .fmul c (d + by8) (a + by8) (b + by8) ms r
  | .ffma c d a b cc ms r => .ffma c (d + by8) (a + by8) (b + by8) (cc + by8) ms r
  | .fmin c d a b ms => .fmin c (d + by8) (a + by8) (b + by8) ms
  | .fmax c d a b ms => .fmax c (d + by8) (a + by8) (b + by8) ms
  | .fabs c d a ms => .fabs c (d + by8) (a + by8) ms
  | .fneg c d a ms => .fneg c (d + by8) (a + by8) ms
  | .fcmp c d a b ms p => .fcmp c d (a + by8) (b + by8) ms p
  | .fclass c d a ms => .fclass c (d + by8) (a + by8) ms
  | .fdiv c d a b ms r => .fdiv c (d + by8) (a + by8) (b + by8) ms r
  | .fsqrt c d a ms r => .fsqrt c (d + by8) (a + by8) ms r
  | .frcp c d a ms => .frcp c (d + by8) (a + by8) ms
  | .frsq c d a ms => .frsq c (d + by8) (a + by8) ms
  | .fexp2 c d a ms => .fexp2 c (d + by8) (a + by8) ms
  | .flog2 c d a ms => .flog2 c (d + by8) (a + by8) ms
  | .fsin c d a ms => .fsin c (d + by8) (a + by8) ms
  | .fcos c d a ms => .fcos c (d + by8) (a + by8) ms
  | .fscale c d a b ms r => .fscale c (d + by8) (a + by8) (b + by8) ms r
  | .ftanh c d a ms => .ftanh c (d + by8) (a + by8) ms
  | .hfma2 c d a b cc ms r bf => .hfma2 c (d + by8) (a + by8) (b + by8) (cc + by8) ms r bf
  | .hadd2 c d a b ms r bf => .hadd2 c (d + by8) (a + by8) (b + by8) ms r bf
  | .hmul2 c d a b ms r bf => .hmul2 c (d + by8) (a + by8) (b + by8) ms r bf
  | .scacc c d a b cc ms => .scacc c (d + by8) (scaccRebase by8 a) (vsRebase by8 b) (vsRebase by8 cc) ms
  | .cvt c d a ms dst src r => .cvt c (d + by8) (a + by8) ms dst src r
  | .pack c d a b ms t hi r => .pack c (d + by8) (a + by8) (b + by8) ms t hi r
  | .unpack c d a ms t n => .unpack c (d + by8) (a + by8) ms t n
  | .shfl c d a b ms g m => .shfl c (d + by8) (a + by8) (b + by8) ms g m
  | .shflup c d a n ms g m => .shflup c (d + by8) (a + by8) n ms g m
  | .shfldn c d a n ms g m => .shfldn c (d + by8) (a + by8) n ms g m
  | .shflx c d a n ms g m => .shflx c (d + by8) (a + by8) n ms g m
  | .bcast c d a l ms g m => .bcast c (d + by8) (a + by8) l ms g m
  | .vredadd c d a ms g => .vredadd c (d + by8) (a + by8) ms g
  | .vredmin c d a ms g u => .vredmin c (d + by8) (a + by8) ms g u
  | .vredmax c d a ms g u => .vredmax c (d + by8) (a + by8) ms g u
  | .fredadd c d a ms g r => .fredadd c (d + by8) (a + by8) ms g r
  | .fredmin c d a ms g => .fredmin c (d + by8) (a + by8) ms g
  | .fredmax c d a ms g => .fredmax c (d + by8) (a + by8) ms g
  | .vscan c d a ms g ex => .vscan c (d + by8) (a + by8) ms g ex
  | .fscan c d a ms g ex r => .fscan c (d + by8) (a + by8) ms g ex r
  | .vfroms c d a ms => .vfroms c (d + by8) a ms
  | .vtos c d a l ms sx => .vtos c d (a + by8) l ms sx
  | .vins c d a l ms => .vins c (d + by8) a l ms
  | .ld c d m w => .ld c (d + by8) (memRebase by8 m) w
  | .st c d m w => .st c (d + by8) (memRebase by8 m) w
  | .pref c m w => .pref c (memRebase by8 m) w
  | .atomAdd c d m w64 => .atomAdd c (d + by8) (memRebase by8 m) w64
  | .atomSub c d m w64 => .atomSub c (d + by8) (memRebase by8 m) w64
  | .atomAnd c d m w64 => .atomAnd c (d + by8) (memRebase by8 m) w64
  | .atomOr c d m w64 => .atomOr c (d + by8) (memRebase by8 m) w64
  | .atomXor c d m w64 => .atomXor c (d + by8) (memRebase by8 m) w64
  | .atomMin c d m w64 => .atomMin c (d + by8) (memRebase by8 m) w64
  | .atomMax c d m w64 => .atomMax c (d + by8) (memRebase by8 m) w64
  | .atomMinn c d m w64 => .atomMinn c (d + by8) (memRebase by8 m) w64
  | .atomMaxn c d m w64 => .atomMaxn c (d + by8) (memRebase by8 m) w64
  | .atomXchg c d m w64 => .atomXchg c (d + by8) (memRebase by8 m) w64
  | .atomCas c d m w64 => .atomCas c (d + by8) (memRebase by8 m) w64
  | .redAdd c d m w64 => .redAdd c (d + by8) (memRebase by8 m) w64
  | .redSub c d m w64 => .redSub c (d + by8) (memRebase by8 m) w64
  | .redAnd c d m w64 => .redAnd c (d + by8) (memRebase by8 m) w64
  | .redOr c d m w64 => .redOr c (d + by8) (memRebase by8 m) w64
  | .redXor c d m w64 => .redXor c (d + by8) (memRebase by8 m) w64
  | .redMin c d m w64 => .redMin c (d + by8) (memRebase by8 m) w64
  | .redMax c d m w64 => .redMax c (d + by8) (memRebase by8 m) w64
  | .redMinn c d m w64 => .redMinn c (d + by8) (memRebase by8 m) w64
  | .redMaxn c d m w64 => .redMaxn c (d + by8) (memRebase by8 m) w64
  | .fatomAdd c d m => .fatomAdd c (d + by8) (memRebase by8 m)
  | .fatomMin c d m => .fatomMin c (d + by8) (memRebase by8 m)
  | .fatomMax c d m => .fatomMax c (d + by8) (memRebase by8 m)
  | .fredAdd c d m => .fredAdd c (d + by8) (memRebase by8 m)
  | .fredMin c d m => .fredMin c (d + by8) (memRebase by8 m)
  | .fredMax c d m => .fredMax c (d + by8) (memRebase by8 m)
  | .twrite c td v row => .twrite c td (v + by8) row
  | .tread c v ta row => .tread c (v + by8) ta row
  | .dmgather c h v n k => .dmgather c h (v + by8) n k
  | .dmscatter c h v n k => .dmscatter c h (v + by8) n k
  | .calli c v cls => .calli c (v + by8) cls
  | i => i

def memRegs (m : MemV) : List (Nat × Nat) := (1, m.base.toNat) :: m.idx.toList.map fun r => (0, r.toNat)
def vsRegs (x : VOrS) : List (Nat × Nat) := match x with
  | .v r => [(0, r.toNat)]
  | .s r => [(1, r.toNat)]
/-- n registers from r on: an operand run. -/
def vRun (r : VIdx) (n : Nat) : List (Nat × Nat) := (List.range n).map fun i => (0, (r + BitVec.ofNat 8 i).toNat)
def sRun (r n : Nat) : List (Nat × Nat) := (List.range n).map fun i => (1, (r + i) % 128)
def tileRegs (t : TileRef) : List (Nat × Nat) := match t with
  | .name _ => []
  | .reg r => [(1, r.toNat)]
/-- R404, R405: the vector (class 0) and scalar (class 1) registers an instruction reads, by field position, a run of registers at its
field; a destination stands last. -/
def regFields (i : Instr) : List (Nat × Nat) :=
  match i with
  | .vadd _ d a b _ _ => [(0, a.toNat)] ++ [(0, b.toNat)] ++ [(0, d.toNat)]
  | .vsub _ d a b _ _ => [(0, a.toNat)] ++ [(0, b.toNat)] ++ [(0, d.toNat)]
  | .vmul _ d a b _ => [(0, a.toNat)] ++ [(0, b.toNat)] ++ [(0, d.toNat)]
  | .vmulh _ d a b _ _ => [(0, a.toNat)] ++ [(0, b.toNat)] ++ [(0, d.toNat)]
  | .vmad _ d a b cc _ => [(0, a.toNat)] ++ [(0, b.toNat)] ++ [(0, cc.toNat)] ++ [(0, d.toNat)]
  | .vand _ d a b _ => [(0, a.toNat)] ++ [(0, b.toNat)] ++ [(0, d.toNat)]
  | .vor _ d a b _ => [(0, a.toNat)] ++ [(0, b.toNat)] ++ [(0, d.toNat)]
  | .vxor _ d a b _ => [(0, a.toNat)] ++ [(0, b.toNat)] ++ [(0, d.toNat)]
  | .vshl _ d a b _ => [(0, a.toNat)] ++ [(0, b.toNat)] ++ [(0, d.toNat)]
  | .vshr _ d a b _ => [(0, a.toNat)] ++ [(0, b.toNat)] ++ [(0, d.toNat)]
  | .vsra _ d a b _ => [(0, a.toNat)] ++ [(0, b.toNat)] ++ [(0, d.toNat)]
  | .vmin _ d a b _ => [(0, a.toNat)] ++ [(0, b.toNat)] ++ [(0, d.toNat)]
  | .vmax _ d a b _ => [(0, a.toNat)] ++ [(0, b.toNat)] ++ [(0, d.toNat)]
  | .vminn _ d a b _ => [(0, a.toNat)] ++ [(0, b.toNat)] ++ [(0, d.toNat)]
  | .vmaxn _ d a b _ => [(0, a.toNat)] ++ [(0, b.toNat)] ++ [(0, d.toNat)]
  | .vabs _ d a _ _ => [(0, a.toNat)] ++ [(0, d.toNat)]
  | .vneg _ d a _ _ => [(0, a.toNat)] ++ [(0, d.toNat)]
  | .vclz _ d a _ => [(0, a.toNat)] ++ [(0, d.toNat)]
  | .vpopc _ d a _ => [(0, a.toNat)] ++ [(0, d.toNat)]
  | .vcmp _ _ a b _ _ => [(0, a.toNat)] ++ [(0, b.toNat)]
  | .vsel _ d a b _ _ => [(0, a.toNat)] ++ [(0, b.toNat)] ++ [(0, d.toNat)]
  | .vmov _ f _ => ((vmovFields f).reverse.map fun r => (0, r.toNat))
  | .vlane _ d _ => [(0, d.toNat)]
  | .vaddi _ d a _ _ => [(0, a.toNat)] ++ [(0, d.toNat)]
  | .vandi _ d a _ _ => [(0, a.toNat)] ++ [(0, d.toNat)]
  | .vori _ d a _ _ => [(0, a.toNat)] ++ [(0, d.toNat)]
  | .vxori _ d a _ _ => [(0, a.toNat)] ++ [(0, d.toNat)]
  | .vshli _ d a _ _ => [(0, a.toNat)] ++ [(0, d.toNat)]
  | .vshri _ d a _ _ => [(0, a.toNat)] ++ [(0, d.toNat)]
  | .vsrai _ d a _ _ => [(0, a.toNat)] ++ [(0, d.toNat)]
  | .vmovi _ d _ _ => [(0, d.toNat)]
  | .vcmpi _ _ a _ _ _ => [(0, a.toNat)]
  | .fadd _ d a b _ _ => [(0, a.toNat)] ++ [(0, b.toNat)] ++ [(0, d.toNat)]
  | .fsub _ d a b _ _ => [(0, a.toNat)] ++ [(0, b.toNat)] ++ [(0, d.toNat)]
  | .fmul _ d a b _ _ => [(0, a.toNat)] ++ [(0, b.toNat)] ++ [(0, d.toNat)]
  | .ffma _ d a b cc _ _ => [(0, a.toNat)] ++ [(0, b.toNat)] ++ [(0, cc.toNat)] ++ [(0, d.toNat)]
  | .fmin _ d a b _ => [(0, a.toNat)] ++ [(0, b.toNat)] ++ [(0, d.toNat)]
  | .fmax _ d a b _ => [(0, a.toNat)] ++ [(0, b.toNat)] ++ [(0, d.toNat)]
  | .fabs _ d a _ => [(0, a.toNat)] ++ [(0, d.toNat)]
  | .fneg _ d a _ => [(0, a.toNat)] ++ [(0, d.toNat)]
  | .fcmp _ _ a b _ _ => [(0, a.toNat)] ++ [(0, b.toNat)]
  | .fclass _ d a _ => [(0, a.toNat)] ++ [(0, d.toNat)]
  | .fdiv _ d a b _ _ => [(0, a.toNat)] ++ [(0, b.toNat)] ++ [(0, d.toNat)]
  | .fsqrt _ d a _ _ => [(0, a.toNat)] ++ [(0, d.toNat)]
  | .frcp _ d a _ => [(0, a.toNat)] ++ [(0, d.toNat)]
  | .frsq _ d a _ => [(0, a.toNat)] ++ [(0, d.toNat)]
  | .fexp2 _ d a _ => [(0, a.toNat)] ++ [(0, d.toNat)]
  | .flog2 _ d a _ => [(0, a.toNat)] ++ [(0, d.toNat)]
  | .fsin _ d a _ => [(0, a.toNat)] ++ [(0, d.toNat)]
  | .fcos _ d a _ => [(0, a.toNat)] ++ [(0, d.toNat)]
  | .fscale _ d a b _ _ => [(0, a.toNat)] ++ [(0, b.toNat)] ++ [(0, d.toNat)]
  | .ftanh _ d a _ => [(0, a.toNat)] ++ [(0, d.toNat)]
  | .hfma2 _ d a b cc _ _ _ => [(0, a.toNat)] ++ [(0, b.toNat)] ++ [(0, cc.toNat)] ++ [(0, d.toNat)]
  | .hadd2 _ d a b _ _ _ => [(0, a.toNat)] ++ [(0, b.toNat)] ++ [(0, d.toNat)]
  | .hmul2 _ d a b _ _ _ => [(0, a.toNat)] ++ [(0, b.toNat)] ++ [(0, d.toNat)]
  | .scacc _ d a b cc _ => ((scaccFields a).map fun r => (0, r.toNat)) ++ vsRegs b ++ vsRegs cc ++ [(0, d.toNat)]
  | .cvt _ d a _ _ _ _ => [(0, a.toNat)] ++ [(0, d.toNat)]
  | .pack _ d a b _ _ _ _ => [(0, a.toNat)] ++ [(0, b.toNat)] ++ [(0, d.toNat)]
  | .unpack _ d a _ _ _ => [(0, a.toNat)] ++ [(0, d.toNat)]
  | .shfl _ d a b _ _ _ => [(0, a.toNat)] ++ [(0, b.toNat)] ++ [(0, d.toNat)]
  | .shflup _ d a _ _ _ _ => [(0, a.toNat)] ++ [(0, d.toNat)]
  | .shfldn _ d a _ _ _ _ => [(0, a.toNat)] ++ [(0, d.toNat)]
  | .shflx _ d a _ _ _ _ => [(0, a.toNat)] ++ [(0, d.toNat)]
  | .bcast _ d a _ _ _ _ => [(0, a.toNat)] ++ [(0, d.toNat)]
  | .vredadd _ d a _ _ => [(0, a.toNat)] ++ [(0, d.toNat)]
  | .vredmin _ d a _ _ _ => [(0, a.toNat)] ++ [(0, d.toNat)]
  | .vredmax _ d a _ _ _ => [(0, a.toNat)] ++ [(0, d.toNat)]
  | .fredadd _ d a _ _ _ => [(0, a.toNat)] ++ [(0, d.toNat)]
  | .fredmin _ d a _ _ => [(0, a.toNat)] ++ [(0, d.toNat)]
  | .fredmax _ d a _ _ => [(0, a.toNat)] ++ [(0, d.toNat)]
  | .vscan _ d a _ _ _ => [(0, a.toNat)] ++ [(0, d.toNat)]
  | .fscan _ d a _ _ _ _ => [(0, a.toNat)] ++ [(0, d.toNat)]
  | .vfroms _ d a _ => [(1, a.toNat)] ++ [(0, d.toNat)]
  | .vtos _ d a _ _ _ => [(0, a.toNat)] ++ [(1, d.toNat)]
  | .vins _ d a _ _ => [(1, a.toNat)] ++ [(0, d.toNat)]
  | .sbind _ _ a b cc _ _ => [(1, a.toNat)] ++ [(1, b.toNat)] ++ [(1, cc.toNat)]
  | .sseek _ _ a _ => [(1, a.toNat)]
  | .spos _ d _ _ => [(1, d.toNat)]
  | .ld _ d m _ => memRegs m ++ [(0, d.toNat)]
  | .st _ d m w => memRegs m ++ vRun d (if w == .w64 then 2 else 1)
  | .ldsc _ d m _ => [(1, m.base.toNat)] ++ [(1, d.toNat)]
  | .stsc _ d m _ => [(1, m.base.toNat)] ++ [(1, d.toNat)]
  | .pref _ m _ => memRegs m
  | .atomAdd _ d m w => memRegs m ++ vRun d (if w then 2 else 1)
  | .atomSub _ d m w => memRegs m ++ vRun d (if w then 2 else 1)
  | .atomAnd _ d m w => memRegs m ++ vRun d (if w then 2 else 1)
  | .atomOr _ d m w => memRegs m ++ vRun d (if w then 2 else 1)
  | .atomXor _ d m w => memRegs m ++ vRun d (if w then 2 else 1)
  | .atomMin _ d m w => memRegs m ++ vRun d (if w then 2 else 1)
  | .atomMax _ d m w => memRegs m ++ vRun d (if w then 2 else 1)
  | .atomMinn _ d m w => memRegs m ++ vRun d (if w then 2 else 1)
  | .atomMaxn _ d m w => memRegs m ++ vRun d (if w then 2 else 1)
  | .atomXchg _ d m w => memRegs m ++ vRun d (if w then 2 else 1)
  | .atomCas _ d m w => memRegs m ++ vRun d (if w then 4 else 2)
  | .redAdd _ d m w => memRegs m ++ vRun d (if w then 2 else 1)
  | .redSub _ d m w => memRegs m ++ vRun d (if w then 2 else 1)
  | .redAnd _ d m w => memRegs m ++ vRun d (if w then 2 else 1)
  | .redOr _ d m w => memRegs m ++ vRun d (if w then 2 else 1)
  | .redXor _ d m w => memRegs m ++ vRun d (if w then 2 else 1)
  | .redMin _ d m w => memRegs m ++ vRun d (if w then 2 else 1)
  | .redMax _ d m w => memRegs m ++ vRun d (if w then 2 else 1)
  | .redMinn _ d m w => memRegs m ++ vRun d (if w then 2 else 1)
  | .redMaxn _ d m w => memRegs m ++ vRun d (if w then 2 else 1)
  | .fatomAdd _ d m => memRegs m ++ [(0, d.toNat)]
  | .fatomMin _ d m => memRegs m ++ [(0, d.toNat)]
  | .fatomMax _ d m => memRegs m ++ [(0, d.toNat)]
  | .fredAdd _ d m => memRegs m ++ [(0, d.toNat)]
  | .fredMin _ d m => memRegs m ++ [(0, d.toNat)]
  | .fredMax _ d m => memRegs m ++ [(0, d.toNat)]
  | .ldres _ d m _ => [(1, m.base.toNat)] ++ [(1, d.toNat)]
  | .stcon _ d m _ => [(1, m.base.toNat)] ++ [(1, d.toNat)]
  | .barinit _ d base _ => [(1, base.toNat)] ++ [(1, d.toNat)]
  | .bararr _ base _ => [(1, base.toNat)]
  | .barexp _ d base _ => [(1, base.toNat)] ++ [(1, d.toNat)]
  | .barwait _ d base _ => [(1, base.toNat)] ++ [(1, d.toNat)]
  | .bartest _ d base _ _ => [(1, base.toNat)] ++ [(1, d.toNat)]
  | .publish _ d base _ => [(1, base.toNat)] ++ [(1, d.toNat)]
  | .tnew _ h _ => [(1, h.toNat)]
  | .twrite _ td v _ => tileRegs td ++ [(0, v.toNat)]
  | .tread _ v ta _ => tileRegs ta ++ [(0, v.toNat)]
  | .tstat _ h ta => tileRegs ta ++ [(1, h.toNat)]
  | .tload _ td h _ _ => tileRegs td ++ sRun h.toNat 2
  | .tstore _ ta h _ _ => tileRegs ta ++ sRun h.toNat 2
  | .lease _ h _ _ => [(1, h.toNat)]
  | .leaset _ h _ _ => [(1, h.toNat)]
  | .vacate _ h => [(1, h.toNat)]
  | .lstat _ d h => [(1, h.toNat)] ++ [(1, d.toNat)]
  | .mxloadb _ h ta _ _ _ => tileRegs ta ++ [(1, h.toNat)]
  | .mxrun _ h ta _ _ _ => tileRegs ta ++ sRun h.toNat 2
  | .mxdrain _ td h _ _ _ bar => tileRegs td ++ sRun h.toNat (1 + bar.toNat)
  | .mxzero _ h _ => [(1, h.toNat)]
  | .mxconv _ h _ _ _ => sRun h.toNat 2
  | .cvshape _ h => sRun h.toNat 4
  | .dmcopy _ h k => sRun h.toNat (4 + k.bar.toNat)
  | .dmgather _ h v _ k => [(0, v.toNat)] ++ sRun h.toNat (3 + k.bar.toNat)
  | .dmscatter _ h v _ k => [(0, v.toNat)] ++ sRun h.toNat (3 + k.bar.toNat)
  | .dmfill _ h _ bar => sRun h.toNat (4 + bar.toNat)
  | .clreduce _ h _ _ _ _ => [(1, h.toNat)]
  | .clgather _ h _ _ => [(1, h.toNat)]
  | .clbcast _ h _ _ => [(1, h.toNat)]
  | .pass _ d a => [(1, a.toNat)] ++ [(1, d.toNat)]
  | .passi _ d _ => [(1, d.toNat)]
  | .passx _ d a b q => [(1, a.toNat)] ++ sRun b.toNat 4 ++ (q.toList.map fun r => (0, r.toNat)) ++ [(1, d.toNat)]
  | .passf _ d => [(1, d.toNat)]
  | .setfs _ a => [(1, a.toNat)]
  | .exitp _ a => [(1, a.toNat)]
  | .csrrd _ d _ => [(1, d.toNat)]
  | .csrwr _ _ a => [(1, a.toNat)]
  | .inboxClear _ a => [(1, a.toNat)]
  | .invstateAbandon _ a => [(1, a.toNat)]
  | .gtime _ d => [(1, d.toNat)]
  | .brz _ a _ => [(1, a.toNat)]
  | .brnz _ a _ => [(1, a.toNat)]
  | .calli _ v _ => [(0, v.toNat)]
  | .sadd _ d a b => [(1, a.toNat)] ++ [(1, b.toNat)] ++ [(1, d.toNat)]
  | .ssub _ d a b => [(1, a.toNat)] ++ [(1, b.toNat)] ++ [(1, d.toNat)]
  | .smul _ d a b => [(1, a.toNat)] ++ [(1, b.toNat)] ++ [(1, d.toNat)]
  | .smulh _ d a b _ => [(1, a.toNat)] ++ [(1, b.toNat)] ++ [(1, d.toNat)]
  | .sdiv _ d a b _ => [(1, a.toNat)] ++ [(1, b.toNat)] ++ [(1, d.toNat)]
  | .srem _ d a b _ => [(1, a.toNat)] ++ [(1, b.toNat)] ++ [(1, d.toNat)]
  | .sand _ d a b => [(1, a.toNat)] ++ [(1, b.toNat)] ++ [(1, d.toNat)]
  | .sor _ d a b => [(1, a.toNat)] ++ [(1, b.toNat)] ++ [(1, d.toNat)]
  | .sxor _ d a b => [(1, a.toNat)] ++ [(1, b.toNat)] ++ [(1, d.toNat)]
  | .sshl _ d a b => [(1, a.toNat)] ++ [(1, b.toNat)] ++ [(1, d.toNat)]
  | .sshr _ d a b => [(1, a.toNat)] ++ [(1, b.toNat)] ++ [(1, d.toNat)]
  | .ssra _ d a b => [(1, a.toNat)] ++ [(1, b.toNat)] ++ [(1, d.toNat)]
  | .smin _ d a b => [(1, a.toNat)] ++ [(1, b.toNat)] ++ [(1, d.toNat)]
  | .smax _ d a b => [(1, a.toNat)] ++ [(1, b.toNat)] ++ [(1, d.toNat)]
  | .sminn _ d a b => [(1, a.toNat)] ++ [(1, b.toNat)] ++ [(1, d.toNat)]
  | .smaxn _ d a b => [(1, a.toNat)] ++ [(1, b.toNat)] ++ [(1, d.toNat)]
  | .scmp _ d a b _ => [(1, a.toNat)] ++ [(1, b.toNat)] ++ [(1, d.toNat)]
  | .ssel _ d a b cc => [(1, a.toNat)] ++ [(1, b.toNat)] ++ [(1, cc.toNat)] ++ [(1, d.toNat)]
  | .smov _ d a => [(1, a.toNat)] ++ [(1, d.toNat)]
  | .sclz _ d a => [(1, a.toNat)] ++ [(1, d.toNat)]
  | .spopc _ d a => [(1, a.toNat)] ++ [(1, d.toNat)]
  | .sbfx _ d a _ _ _ => [(1, a.toNat)] ++ [(1, d.toNat)]
  | .sbfi _ d a _ _ => [(1, a.toNat)] ++ [(1, d.toNat)]
  | .saddi _ d a _ => [(1, a.toNat)] ++ [(1, d.toNat)]
  | .sandi _ d a _ => [(1, a.toNat)] ++ [(1, d.toNat)]
  | .sori _ d a _ => [(1, a.toNat)] ++ [(1, d.toNat)]
  | .sxori _ d a _ => [(1, a.toNat)] ++ [(1, d.toNat)]
  | .sshli _ d a _ => [(1, a.toNat)] ++ [(1, d.toNat)]
  | .sshri _ d a _ => [(1, a.toNat)] ++ [(1, d.toNat)]
  | .ssrai _ d a _ => [(1, a.toNat)] ++ [(1, d.toNat)]
  | .smovi _ d _ => [(1, d.toNat)]
  | .shii _ d _ => [(1, d.toNat)]
  | .scmpi _ d a _ _ => [(1, a.toNat)] ++ [(1, d.toNat)]
  | .mcnt _ d _ => [(1, d.toNat)]
  | .mfirst _ d _ => [(1, d.toNat)]
  | .mfroms _ _ a => [(1, a.toNat)]
  | .mtos _ d _ => [(1, d.toNat)]
  | .inv _ o => vRun o.x 2 ++ [(0, o.y.toNat), (0, o.tgt.toNat)]
  | .rdpr _ d _ => [(1, d.toNat)]
  | .wrpr _ _ a => [(1, a.toNat)]
  | .voteWrite _ a => [(1, a.toNat)]
  | .shsave _ d a => [(1, a.toNat)] ++ [(1, d.toNat)]
  | .shrest _ d a => [(1, a.toNat)] ++ [(1, d.toNat)]
  | .tlbinv _ _ a => [(1, a.toNat)]
  | .evict _ d a => [(1, a.toNat)] ++ [(1, d.toNat)]
  | .ctrsel _ a => [(1, a.toNat)]
  | .aszrec _ d a b => [(1, a.toNat)] ++ [(1, b.toNat)] ++ [(1, d.toNat)]
  | .tabort _ a => [(1, a.toNat)]
  | .warpctlStat _ d a => [(1, a.toNat)] ++ [(1, d.toNat)]
  | .warpctlKill _ d a => [(1, a.toNat)] ++ [(1, d.toNat)]
  | _ => []

end Sys2Proof.Machine
end

