-- ==== Sys2Proof/Machine/MaskOps.lean ====
section
/-! DEFINITION. Mask instructions (spec/09 R198). A write to m0 sets exec, within the path's lane set (R215). -/
namespace Sys2Proof.Machine

def mop2 (d a b : MIdx) (f : Word → Word → Word) (s : State) : Out := mop [] d (fun w => f (w.rdM a) (w.rdM b)) s

def execMand (_c : Ctl) (d a b : MIdx) (s : State) : Out := mop2 d a b (fun x y => x &&& y) s
def execMor (_c : Ctl) (d a b : MIdx) (s : State) : Out := mop2 d a b (fun x y => x ||| y) s
def execMxor (_c : Ctl) (d a b : MIdx) (s : State) : Out := mop2 d a b (fun x y => x ^^^ y) s
def execMandn (_c : Ctl) (d a b : MIdx) (s : State) : Out := mop2 d a b (fun x y => x &&& ~~~y) s
def execMnot (_c : Ctl) (d a : MIdx) (s : State) : Out := mop [] d (fun w => ~~~(w.rdM a)) s
def execMmov (_c : Ctl) (d a : MIdx) (s : State) : Out := mop [] d (fun w => w.rdM a) s
/-- The masks are taken over bits W−1:0. -/
def execMcnt (_c : Ctl) (d : SIdx) (a : MIdx) (s : State) : Out :=
  sop [] d (fun w => BitVec.ofNat 64 (ones (w.rdM a &&& allLanes w.W))) s
def execMfirst (_c : Ctl) (d : SIdx) (a : MIdx) (s : State) : Out :=
  sop [] d (fun w => BitVec.ofNat 64 (lowest (w.rdM a &&& allLanes w.W))) s
def execMfroms (c : Ctl) (d : MIdx) (a : SIdx) (s : State) : Out := mop [(a, luA c)] d (fun w => w.rdS a) s
def execMtos (_c : Ctl) (d : SIdx) (a : MIdx) (s : State) : Out := sop [] d (fun w => w.rdM a &&& allLanes w.W) s

end Sys2Proof.Machine
end

