-- ==== Sys2Proof/Machine/Power.lean ====
section
/-! DEFINITION. Operating classes, rails and clocks (spec/19 R363, R364, R369 to R371). -/
namespace Sys2Proof.Machine

/-- R363: requirement of a class in steps of 6.25 mV. -/
def requirement (cls : Nat) : Nat := match cls with
  | 0 => 112 | 1 => 120 | 2 => 128 | _ => 140
/-- R364: a cluster holds a resident block or a placed gang, or a lease that is awake, waking, vacating or retained. -/
def inUse (s : State) (cl : Nat) : Bool :=
  (List.range 8).any (fun i => (s.core (8 * cl + i)).block.isSome) ||
  s.gangs.any (fun e => e.2.cluster == cl && !e.2.gone && !e.2.away) || (s.cluster cl).leases.any (fun e => e.2.holds) || (s.cluster cl).retained.any fun r => kept s (s.cluster cl) r
/-- The clusters a rail feeds: those of compute dies 2k and 2k + 1. -/
def railClusters (k : Nat) : List Nat := (List.range 16).map fun i => 16 * k + i
/-- The highest requirement among the rail's clusters that are in use, or 104 steps: what the floor comes to once clocks have followed. -/
def useFloor (s : State) (k : Nat) : Nat :=
  ((railClusters k).filter (inUse s)).foldl (fun m cl => max m (requirement (s.cluster cl).pool)) 104
/-- R371: what a cluster's clock needs as it runs now; nothing while it is gated. -/
def clockNeed (s : State) (cl : Nat) : Nat :=
  if !s.clusters.has cl || (s.cluster cl).gate then 104 else requirement (max (s.cluster cl).pool (s.cluster cl).clk)
/-- R369, R371: the floor. A cluster that leaves a class or goes out of use counts until it has lowered or gated its clock. -/
def railFloor (s : State) (k : Nat) : Nat := (railClusters k).foldl (fun m cl => max m (clockNeed s cl)) (useFloor s k)
/-- Partitions with a die on the rail, and their votes. -/
def railVotes (s : State) (k : Nat) : List Nat :=
  (s.parts.vals.filter fun p => p.dies.any fun d => d / 2 == k).map Part.vote
def railTarget (s : State) (k : Nat) : Nat := (railVotes s k).foldl max (railFloor s k)
def rail (s : State) (k : Nat) : Rail := s.io.rails.getD k {}
def setRail (s : State) (k : Nat) (r : Rail) : State := s.modIo fun io => { io with rails := setAt io.rails k r }

/-- R369: the target follows floor and votes: a rise ends the hold and starts the steps, a fall starts the hold. A rail that was
stepping towards the old target and now goes the same way keeps its step times; another's first step comes 10 µs after the change. -/
def railFollow (s : State) (k : Nat) : State :=
  let r := rail s k
  let n := railTarget s k
  if n = r.target then s
  else if r.target < n then
    let same := decide (r.steps < r.target) || (r.hold.isNone && decide (n < r.steps))
    setRail s k { r with target := n, hold := none, t := if same then r.t else s.now + 10000 }
  else setRail s k { r with target := n, hold := some (s.now + 2000000) }
def railsFollow (s : State) : State := (List.range 3).foldl railFollow s

/-- Whether a rail's next step is due. -/
def railStepDue (s : State) (k : Nat) : Bool :=
  let r := rail s k
  r.hold.isNone && r.steps != r.target && decide (r.t ≤ s.now)
/-- RAIL_STEP. -/
def execRailStep (s : State) : Out :=
  let k := s.arg.sel
  let r := rail s k
  .next (if railStepDue s k then
    setRail s k { r with steps := if r.steps < r.target then r.steps + 1 else r.steps - 1, t := r.t + 10000 } else s)
/-- RAIL_HOLD_END: the 2 ms hold ends; the first step down comes 10 µs later. -/
def execRailHoldEnd (s : State) : Out :=
  let k := s.arg.sel
  let r := rail s k
  match r.hold with
  | none => .next s
  | some h => .next (if h ≤ s.now then setRail s k { r with hold := none, t := h + 10000 } else s)

/-- R371: the clock a cluster should run at: its pool's once the rail stands at its requirement. A cluster out of use is gated where the
clusters in use need less than it does, and one that lowers its class changes at once; the floor falls after that (railFloor). -/
def clockWanted (s : State) (cl : Nat) : Nat × Bool :=
  let c := s.cluster cl
  let req := requirement c.pool
  if !inUse s cl && decide (min (s.volt (cl / 8)) (useFloor s (cl / 16)) < req) then (c.clk, true)
  else if req ≤ s.volt (cl / 8) then (c.pool, false)
  else if c.pool < c.clk then (c.pool, c.gate) else (c.clk, c.gate)
/-- CLOCK_SWITCH: the cluster's core cycles pause at most 200 ns, which nothing counts. -/
def execClockSwitch (s : State) : Out :=
  let x := clockWanted s s.arg.cluster
  .next (if s.betweenCycles s.arg.cluster then s.modCluster s.arg.cluster fun c => { c with clk := x.1, gate := x.2 } else s)
/-- A cluster's clock changes between its cycles. -/
def clockDue (s : State) (cl : Nat) : Bool :=
  let x := clockWanted s cl
  (x.1 != (s.cluster cl).clk || x.2 != (s.cluster cl).gate) && s.betweenCycles cl

end Sys2Proof.Machine
end

