-- ==== Sys2Proof/Machine/Release.lean ====
section
/-! DEFINITION. Waiting for a reservation, grants and spills (spec/03 R60 to R63), the frame a TRET reads (spec/18 R331, R342), and the release of a core (R349, R350). -/
namespace Sys2Proof.Machine

/-! ## Reservations (R60 to R63) -/

/-- What a warp waits for before its next instruction: a handler entry, a reservation it is owed, or a header. -/
def headerNeed (s : State) (w : Warp) : Option (Nat × Nat) :=
  match w.entry, w.owed with
  | some e, _ => some (e.reqV, e.reqS)
  | none, some r => some r
  | none, none =>
    if w.p.atHdr && w.p.arrived.isNone && !w.p.settled then
      match headerAt s w w.p.pc with
      | .ok (some h) => if Hdr.bad h then none else some (w.request h Hdr.liveV Hdr.liveS 0)
      | _ => none
    else none
/-- A warp that counts as WAITING-HEADER (R43): it has waited at its header since it last tried, or since a cycle found its next header
unreservable (Issue: markWaits). -/
def waitsHeader (w : Warp) : Bool := w.life == .live && !w.shadow && w.wait == .header
/-- The reservation becomes r; the registers mapped now are the entry registers (R60, R63). -/
def takeReservation (w : Warp) (r : Nat × Nat) : Warp :=
  match w.entry with
  | some e => { finishEntry w e with stalled := false }
  | none => { ({ w with resV := r.1, resS := r.2, owed := none } : Warp).markEntry with wait := .none, stalled := false }
/-- R61: a waiter whose increase fits is granted. -/
def grantOne (s : State) (w : Warp) : State :=
  if waitsHeader w then
    match headerNeed s w with
    | some r => if fits s w r then s.setWarp w.key (takeReservation w r) else s
    | none => s
  else s
/-- R61: waiters in ascending warp index. -/
def grantWaiters (s : State) (core : Nat) : State :=
  (s.blockWarps core).foldl (fun s w => match s.warp? w.key with
    | some w => grantOne s w
    | none => s) s
/-- A waiter that R61 could grant now. -/
def grantDue (s : State) (core : Nat) : Bool :=
  (s.blockWarps core).any fun w => waitsHeader w && (headerNeed s w).any (fits s w)

/-- R62: registers beyond n spill, the highest index first. -/
def spillV (n : Nat) (m : SMap VReg) : SMap VReg :=
  let keys := (m.filter fun e => !inboxV e.1 && !e.2.spilled).map Prod.fst
  let go := keys.drop n
  m.mapVals fun k x => if go.contains k then { x with spilled := true } else x
def spillS (n : Nat) (m : SMap SReg) : SMap SReg :=
  let keys := (m.filter fun e => !inboxS e.1 && !e.2.spilled).map Prod.fst
  let go := keys.drop n
  m.mapVals fun k x => if go.contains k then { x with spilled := true } else x
/-- A victim: within its floor, and owed what it held (R63). It goes on waiting for what it waited for; the reservation is asked for
again once nothing else keeps its next instruction from issuing. -/
def spillTo (w : Warp) (fv fs : Nat) : Warp :=
  { w with
    vregs := spillV fv w.vregs, sregs := spillS fs w.sregs,
    owed := some (w.owed.getD (w.resV, w.resS)), resV := min w.resV fv, resS := min w.resS fs }
/-- R62, R343: the floor of a victim: zero for a waiter in S mode. -/
def floorOf (v : Warp) (zero : Bool) : Nat × Nat := if zero then (0, 0) else (v.id.floorV, v.id.floorS)
def victim (s : State) (core me : Nat) (zero : Bool) (free : Warp → Bool) : Option Warp :=
  ((s.blockWarps core).filter fun v =>
    v.idx != me && v.life == .live && !v.shadow && free v &&
    (decide ((floorOf v zero).1 < v.resV) || decide ((floorOf v zero).2 < v.resS))).getLast?
/-- Chooses victims until a condition holds or none is left; waiters are granted after each. -/
def spillUntil (core me : Nat) (zero : Bool) (free : Warp → Bool) (ok : State → Bool) : Nat → State → State
  | 0, s => s
  | n + 1, s =>
    if ok s then s
    else match victim s core me zero free with
      | none => s
      | some v =>
        let s := s.setWarp v.key (spillTo v (floorOf v zero).1 (floorOf v zero).2)
        spillUntil core me zero free ok n (grantWaiters s core)

/-! ## The frame of a TRET (R331, R342) -/

/-- The 32 words of the warp's system frame, if its page can be read. -/
def readFrame (s : State) (w : Warp) : Option (List Word) :=
  (readWords s { w with smode := true } .load (systemFrameAddr s w) 32).toOption
def frameCode (f : List Word) : Nat := (f.getD 0 0).toNat % 256
def frameAction (f : List Word) : Nat := (f.getD 16 0).toNat / 2 ^ 56
/-- Registers and mode come back from the frame. -/
def frameRegs (w : Warp) (f : List Word) : Warp :=
  let u := f.getD 28 0
  let w := restoreS w 1 (u.getLsbD 0) (f.getD 21 0)
  let w := restoreS w 2 (u.getLsbD 1) (f.getD 22 0)
  let w := restoreS w 3 (u.getLsbD 2) (f.getD 23 0)
  let w := restoreS w 126 (u.getLsbD 3) (f.getD 24 0)
  { w with active := false, smode := (f.getD 16 0).getLsbD 8, inv := none }
/-- The header word of the block a frame names; 0 where no header stands there. -/
def blockWord (s : State) (w : Warp) (a : Nat) : Word :=
  match headerAt s w a with
  | .ok (some h) => h
  | _ => 0
/-- ACTION 0: PC, block and exec of the frame, and the reservation held at the trap is owed. LastSite comes back after a pre-emption
(R213). -/
def frameResume (s : State) (w : Warp) (f : List Word) : Warp :=
  let w := frameRegs w f
  let lazy := frameCode f == 0x10
  let pc := (if lazy then f.getD 8 0 else f.getD 17 0).toNat % 2 ^ 56 / 2 * 2
  let blk := (if lazy then f.getD 27 0 else f.getD 26 0).toNat % 2 ^ 56 / 2 * 2
  let exec := if lazy then f.getD 9 0 else f.getD 5 0
  let w := resumeWarp w pc blk (if blk = 0 then 0 else blockWord s w blk) exec
  let w := { w with
    owed := some (w.trapV, w.trapS), p := { w.p with chk := decide (blk ≠ 0), stage := none },
    lastSite := if frameCode f = 0x20 ∨ frameCode f = 0x21 then w.keptSite else w.lastSite, keptSite := none, entry := none }
  -- a stop point at which the warp waited for its user handler: it waits there again (R43, R348)
  match w.keptEntry with
  | some e => { w with owed := none, entry := some e, keptEntry := none, wait := .header }
  | none => w

/-- R332, R402, R353: out of S mode, the stops that had to wait for that, or that stood before the handler, hold again. -/
def stopAgain (w : Warp) : Warp :=
  { w with halted := w.halted || w.haltReq, haltReq := false, perched := w.perched || w.perchReq, perchReq := false }

/-! ## Releasing a core (R349 to R351) -/

/-- The operations of the core's warps, engine commands apart, have completed. -/
def coreQuiet (s : State) (core : Nat) : Bool :=
  (s.blockWarps core).all fun w => w.ops.all fun o => o.done || o.k == .cmd
/-- R164: every lease of a partition on a cluster is revoked. -/
def revokeLeases (s : State) (pid cl : Nat) : State :=
  (s.cluster cl).leases.foldl (fun s e =>
    if e.2.part = pid then
      (let s := evictLease s cl e.1 true
       if (s.lease? cl e.1).any fun l => l.st == .evicted && l.stopping then stopEngine s cl e.1 else s)
    else s) s
/-- Saves the block of a core and everything the core holds for it, and takes it off the core. -/
def saveCore (s : State) (core vdev : Nat) (forced : Bool) : State :=
  let c := s.core core
  let ws := (s.blockWarps core).map fun w => (w.key, w)
  let x : Saved := {
    block := c.block, warps := ws, sp := c.sp, spPoison := c.spPoison, dict := c.dict, dictFor := c.dictFor, unheld := c.unheld,
    tframe := c.tframe, budget := c.budget, left := c.left, slope := c.slope, ctrPage := c.ctrPage, notice := forced }
  let s := ws.foldl (fun s w => s.dropWarp w.1) s
  s.setCore core { c with
    block := none, sp := [], spPoison := [], pinned := [], dict := [], dictFor := none, unheld := [], ctrPage := 0,
    pre := none, left := 0, notice := false, away := true, saved := if c.block.isSome then c.saved.put vdev x else c.saved }
/-- R349: revokes the leases of the partition on the cluster, saves every warp, and releases the core. -/
def releaseCore (s : State) (core : Nat) (forced : Bool) : State :=
  let l := (s.core core).block.elim {} fun b => s.launch b.lid
  saveCore (revokeLeases s l.part (core / 8)) core l.vdev forced

end Sys2Proof.Machine
end

