-- ==== Sys2Proof/Machine/Sync.lean ====
section
/-! DEFINITION. Fences, barrier objects, block, gang and launch synchronisation, publication (spec/06 R135, R142, R143, R147, spec/11 R253 to R258), and the stream descriptors (spec/10 R239 to R241). -/
namespace Sys2Proof.Machine

/-! ## Fences (R135, R253) -/

/-- Every scratchpad write, tile write and scratchpad atomic of the warp has been accepted. -/
def blockAccepted (w : Warp) : Bool :=
  w.ops.all fun o => o.done ||
    (match o.k with
     | .twrite _ _ => false
     | k => !(k.own && o.sp) || o.accs.all fun a => a.applied)
/-- Every global write and atomic of the warp has returned its times. -/
def globalReturned (w : Warp) : Bool := w.ops.all fun o => o.done || !o.k.own || o.sp
/-- R135: what a fence of a scope waits for. -/
def fenceOk (s : State) (w : Warp) (sc : Scope) : Bool :=
  blockAccepted w && decide (w.lctb < s.now) &&
  (match sc with
   | .b => true
   | .g => globalReturned w && decide (w.lctg < s.now)
   | .d => globalReturned w && decide (w.lctg < s.now) && decide (w.lctd < s.now))

def execFence (_c : Ctl) (sc : Scope) (s : State) : Out := if fenceOk s s.w sc then finishS s else stall s .fence

/-! ## Barrier objects (R254, R255) -/

/-- The address of the object and its checks: aligned to 16, in a mapped page. -/
def barAcc (s : State) (w : Warp) (base : SIdx) (off : BitVec 12) : Except TrapInfo Acc :=
  match checkElems s w .load true [(0, saddr w base off, 16)] with
  | .error t => .error { t with tmask := 0 }
  | .ok accs => .ok (accs.headD { lane := 0, va := 0, addr := 0, n := 16 })
/-- An update, counted in st, applied at the bank in issue order. -/
def barOp (c : Ctl) (base : SIdx) (off : BitVec 12) (src : Option SIdx) (u : Word → BarUpd) (s : State) : Out :=
  let ss := match src with
    | some d => [(d, luC c)]
    | none => []
  gate { ssrc := (base, luA c) :: ss, cls := some .st } s fun s sf =>
    match barAcc s s.w base off with
    | .error t => trap s t
    | .ok a =>
      let v := match src with
        | some d => s.w.rdS d
        | none => 0
      finishMS (vstore s sf .st (.bar (u v)) true [a] true)

def execBarinit (c : Ctl) (d base : SIdx) (off : BitVec 12) (s : State) : Out :=
  barOp c base off (some d) (fun v => .init (v.extractLsb' 0 32).toNat (v.extractLsb' 32 30).toNat) s
def execBararr (c : Ctl) (base : SIdx) (off : BitVec 12) (s : State) : Out := barOp c base off none (fun _ => .arrive) s
def execBarexp (c : Ctl) (d base : SIdx) (off : BitVec 12) (s : State) : Out :=
  barOp c base off (some d) (fun v => .expect (v.extractLsb' 0 32).toNat) s

/-- The object as the bank holds it, once the warp's own earlier updates of it have been applied. -/
def barRead (s : State) (w : Warp) (a : Acc) : Option BarObj :=
  if earlierWrite w w.opNext 0 true a then none else some (BarObj.read (s.core w.core).sp a.addr)

/-- R133: the warp's earlier loads of the object are served before an instruction reads or updates it at the bank. -/
def readBefore (s : State) (a : Acc) : State := serveEarlier s s.w.key s.w.opNext 0 true a
/-- R254: waits until PHASE differs from bit 0 of sD, then sD := PHASE. -/
def execBarwait (c : Ctl) (d base : SIdx) (off : BitVec 12) (s : State) : Out :=
  gate { ssrc := [(base, luA c), (d, luC c)], sdst := [d] } s fun s sf =>
    match barAcc s s.w base off with
    | .error t => trap s t
    | .ok a =>
      match barRead s s.w a with
      | none => stall s .barrier
      | some b =>
        if b.phase == (s.w.rdS d).getLsbD 0 then stall s .barrier
        else
          let sf := readBefore sf a
          finishS { sf with w := closeAllFills (sf.w.wrS d (if b.phase then 1 else 0)) }
/-- R254: the object's word to sD; .CLR then clears EVB. -/
def execBartest (c : Ctl) (d base : SIdx) (off : BitVec 12) (clr : Bool) (s : State) : Out :=
  gate { ssrc := [(base, luA c)], sdst := [d] } s fun s sf =>
    match barAcc s s.w base off with
    | .error t => trap s t
    | .ok a =>
      match barRead s s.w a with
      | none => stall s .barrier
      | some b =>
        let v := BitVec.ofNat 64 (b.arrcnt * 2 ^ 32 + 2 * b.evb.toNat + b.phase.toNat)
        let sf := readBefore sf a
        let sf := if clr then barUpdate sf s.w.key s.w.core a.addr fun b => { b with evb := false } else sf
        finishS { sf with w := closeAllFills (sf.w.wrS d v) }

/-! ## BSYNC, GSYNC, LSYNC (R256, R257) -/

/-- The warp arrives at the barrier of its scope; the arrival may open it. -/
def arriveSync (s : State) (k : Nat) (sc : Scope) : State :=
  match s.warp? k with
  | none => s
  | some w => openSyncs (s.setWarp k { w with arrive := some { scope := sc, gen := syncGen s w sc }, pendSync := none }) w
/-- R256: syncs that have issued arrive when their implied fence is met, with or without a baton. -/
def lateArrivals (s : State) : State :=
  s.allWarps.foldl (fun s w =>
    match w.pendSync with
    | some sc => if fenceOk s w sc && w.life == .live && !w.isStopped then arriveSync s w.key sc else s
    | none => s) s

/-- Warps of a core whose barrier has opened and that have not resumed yet, in ascending index (R367). -/
def openWaiters (s : State) (core : Nat) : List Warp :=
  (s.blockWarps core).filter fun w => match w.arrive with
    | some a => !a.go && decide (a.gen < syncGen s w a.scope)
    | none => false
/-- R257, R367: a warp that a barrier resumes: its sync has completed, whether or not it holds a baton, and its next instruction can
issue two cycles after the opening. A warp that is stopped issues the sync again when it goes on. -/
def resumed (w : Warp) : Warp :=
  if w.isStopped || w.stopped then { w with arrive := w.arrive.map fun a => { a with go := true } }
  else { (closeAllFills { w with arrive := none }).advance 8 with idle := 0, busy := 2 }
/-- What a sync that completes in a wave counts as: an instruction of its core (R368, R410). -/
def resume (s : State) (w : Warp) : State :=
  let s := s.modWarp w.key resumed
  if w.isStopped || w.stopped then s
  else charge (s.countOn w.id.vdev w.cluster 0) w.id.vdev w.die 0 0 1
/-- SYNC_RELEASE_WAVE (R367): the next wave of the core's waiting warps resumes; WAVE 0 resumes them all. With `sel` 1 it is the
report of another package that all its warps have arrived (R256). -/
def execSyncReleaseWave (s : State) : Out :=
  if s.arg.sel = 1 then
    let s := s.modLaunch s.arg.lid fun l => { l with arrivedPeers := l.arrivedPeers + 1 }
    .next (openD s { s.w with id := { s.w.id with lid := s.arg.lid, nblocks := (s.launch s.arg.lid).id.nblocks } })
  else
  let core := s.arg.core
  let c := s.core core
  let ws := openWaiters s core
  if ws.isEmpty || c.waveT != 0 then .next s
  else
  let wave := if c.slope = 0 then ws else ws.take c.slope
  let s := wave.foldl resume s
  .next (s.modCore core fun c => { c with waveT := 8 })

/-- The cycle in which a sync issues is no cycle of waiting (R34): its slot is busy with it. -/
def Warp.issueSync (w : Warp) : Warp := if w.pendSync.isSome then w else { w with idle := 0, busy := 1, slotUse := .issued }
/-- Arrives once its implied fence holds, and waits until a wave resumes it; one that was stopped while it waited completes here. -/
def syncAt (sc : Scope) (s : State) : Out :=
  if 1 < s.w.npaths then trap s { code := 3 }
  else match s.w.arrive with
    | some a =>
      if a.go then
        finishS { s with w := closeAllFills { s.w with arrive := none } }
      else stall s .sync
    | none =>
      if fenceOk s s.w sc then
        stall (arriveSync (s.setW s.w.issueSync) s.w.key sc) .sync
      else stall { s with w := { s.w.issueSync with pendSync := some sc } } .sync

def execBsync (_c : Ctl) (s : State) : Out := syncAt .b s
def execGsync (_c : Ctl) (s : State) : Out := syncAt .g s
def execLsync (_c : Ctl) (s : State) : Out := syncAt .d s

/-! ## PUBLISH (R258) -/

/-- The open window of the warp's function whose range holds an address. -/
def windowOf (s : State) (w : Warp) (va : Nat) : Option Nat :=
  (s.io.windows.find? fun e => e.1 / 64 == w.id.vdev && e.2.len != 0 && decide (e.2.va ≤ va) && decide (va < e.2.va + 4096 * e.2.len)).map Prod.fst

def execPublish (c : Ctl) (d base : SIdx) (off : BitVec 12) (s : State) : Out :=
  gate { ssrc := [(base, luA c)], sdst := [d], cls := some .st } s fun s sf =>
    let a := saddr s.w base off
    if 2 ^ 56 ≤ a then trap s { code := 4, taddr := a % 2 ^ 56 }
    else match translate s s.w .load a with
      | .fault k => trap s { code := k, taddr := a }
      | .ok _ pte =>
        match windowOf s s.w a with
        | none => trap s { code := 5, taddr := a }
        | some i =>
          if !ptePubw pte then trap s { code := 5, taddr := a }
          else
            let o : Op := { id := 0, cls := .st, k := .publish i s.now, dst := .sca d, pc := s.w.p.pc, scalar := true }
            let sf := pinAt (fillTlb sf sf.w a) sf.w a
            finishMS { sf with w := addOp (sf.w.pendS d s.w.p.pc) o }

/-! ## Stream descriptors (R239 to R241) -/

/-- R69: binding discards the register's previous contents and frees it. -/
def unmapPort (w : Warp) (d : DIdx) : Warp :=
  if (w.sd d.toNat).bound then w else w.freeV (240 + d.setWidth 8)
/-- R240. It waits while an outstanding operation is to write the register it would turn into a port (log 7). -/
def execSbind (c : Ctl) (d : DIdx) (a b cc : SIdx) (wr : Bool) (es : BitVec 3) (s : State) : Out :=
  gate { ssrc := [(a, luA c), (b, luB c), (cc, luC c)], vec := true } s fun s sf =>
    if s.w.activeMask 0 = 0 then finishV sf 1
    else if 5 ≤ es.toNat ∨ (s.w.rdS a).toNat ≥ 2 ^ 56 then trap s { code := 0x0C }
    else if !(s.w.sd d.toNat).bound && s.w.pendingV (240 + d.setWidth 8) then stall s .reg
    else
      let x : SDesc := {
        base := s.w.rdS a, stride := (s.w.rdS b).extractLsb' 0 32, count := (s.w.rdS cc).extractLsb' 0 32,
        pos := 0, esize := es, dir := wr, bound := true }
      let w := unmapPort sf.w d
      finishV { sf with w := { w with sds := putAt {} w.sds d.toNat x, exh := w.exh &&& ~~~(1#8 <<< d.toNat) } } 1
/-- R241. -/
def execSunbind (_c : Ctl) (d : DIdx) (s : State) : Out :=
  gate {} s fun s sf =>
    if s.w.activeMask 0 = 0 then finishV sf 1
    else finishV { sf with w := { sf.w with sds := putAt {} sf.w.sds d.toNat { sf.w.sd d.toNat with bound := false } } } 1
def execSseek (c : Ctl) (d : DIdx) (a : SIdx) (rel : Bool) (s : State) : Out :=
  gate { ssrc := [(a, luA c)], vec := true } s fun s sf =>
    if s.w.activeMask 0 = 0 then finishV sf 1
    else
      let v := (s.w.rdS a).extractLsb' 0 32
      let x := sf.w.sd d.toNat
      finishV { sf with w := { sf.w with sds := putAt {} sf.w.sds d.toNat { x with pos := if rel then x.pos + v else v } } } 1
def execSpos (_c : Ctl) (d : SIdx) (a : DIdx) (f : SposField) (s : State) : Out :=
  if s.w.activeMask 0 = 0 then gate {} s fun _ sf => finishV sf 1
  else gate { sdst := [d] } s fun s sf =>
    let x := s.w.sd a.toNat
    let v : Word := match f with
      | .pos => x.pos.setWidth 64
      | .cnt => x.count.setWidth 64
      | .base => x.base
      | .str => x.stride.signExtend 64
    finishV { sf with w := sf.w.wrS d v } 1

end Sys2Proof.Machine
end

