-- ==== Sys2Proof/Machine/Privileged.lean ====
section
/-! DEFINITION. The privileged registers and instructions (spec/18 R327 to R339). In U mode each raises subcode PRIV (R188). -/
namespace Sys2Proof.Machine

/-- R188: the privileged check of a meaning. -/
def priv (s : State) (k : State → Out) : Out := if s.w.smode then k s else illegal s 4

/-! ## Privileged registers (R327, R328, R330) -/

/-- R328: a privileged register's value; none where the number has no register. -/
def prRead (s : State) (w : Warp) (n : Nat) : Option Nat :=
  let p := s.part w.id.part
  let c := s.core w.core
  match n with
  | 0x100 => some w.smode.toNat
  | 0x101 => some p.tvec
  | 0x102 => some (w.tcode + 256 * w.tsub + 2 ^ 62 * w.ppm.toNat + 2 ^ 63 * w.active.toNat)
  | 0x103 => some w.taddr
  | 0x104 => some w.tmask.toNat
  | 0x105 => some w.tpc
  | 0x106 => some c.tframe
  | 0x107 => some (c.left * 2 ^ 32 + c.budget)
  | 0x110 => some p.shbase
  | 0x111 => some p.ptbase
  | 0x112 => some p.asid
  | 0x113 => some p.keydom
  | 0x120 => some p.energy.limit
  | 0x121 => some (s.cluster w.cluster).pool
  | 0x122 => some p.vote
  | 0x123 => some c.slope
  | 0x138 => some (p.fwlog.toNat * 2 ^ 63 + p.fwaddr)
  | 0x140 => some p.ctrbank
  | n => if 0x130 ≤ n ∧ n ≤ 0x137 then some (linkAllows p w.die (n - 0x130)).toNat else none
/-- R378: PTBASE takes effect after TLBINV.ASID or TLBINV.ALL, or under another ASID. -/
def setRoot (p : Part) (a : Nat) : Part := { p with ptbase := a, oldRoot := if root p = a then none else some (root p) }
def setAsid (p : Part) (n : Nat) : Part := { p with asid := n, oldRoot := if n = p.asid then p.oldRoot else none }
/-- R330: a write by access codes; fields marked RO ignore it. VOTE has a meaning of its own. -/
def prWrite (s : State) (w : Warp) (n : Nat) (v : Word) : State :=
  let x := v.toNat
  match n with
  | 0x101 => s.modPart w.id.part fun p => { p with tvec := x % 2 ^ 56 }
  | 0x106 => s.modCore w.core fun c => { c with tframe := x % 2 ^ 56 / 256 * 256 }
  | 0x107 => s.modCore w.core fun c => { c with budget := x % 2 ^ 32 }
  | 0x111 => s.modPart w.id.part fun p => setRoot p (x % 2 ^ 56 / 4096 * 4096)
  | 0x112 => s.modPart w.id.part fun p => setAsid p (x % 2 ^ 16)
  | 0x120 => s.modPart w.id.part fun p => { p with energy := { p.energy with limit := x } }
  | 0x123 => s.modCore w.core fun c => { c with slope := x % 256 }
  | 0x138 => s.modPart w.id.part fun p => { p with fwlog := p.fwlog && !v.getLsbD 63 }
  | _ => s

def execRdpr (_c : Ctl) (d : SIdx) (n : BitVec 12) (s : State) : Out :=
  priv s fun s => match prRead s s.w n.toNat with
    | none => illegal s 0x0A
    | some _ => gate { sdst := [d] } s fun s sf =>
        finishS { sf with w := sf.w.wrS d (BitVec.ofNat 64 ((prRead s s.w n.toNat).getD 0)) }
def execWrpr (c : Ctl) (n : BitVec 12) (a : SIdx) (s : State) : Out :=
  priv s fun s => match prRead s s.w n.toNat with
    | none => illegal s 0x0A
    | some _ => gate { ssrc := [(a, luA c)] } s fun s sf => finishS (prWrite sf s.w n.toNat (s.w.rdS a))
/-- R370: whether a vote is denied. -/
def voteDenied (s : State) (w : Warp) (v : Nat) : Bool :=
  decide (152 < v) || (decide (1 ≤ v) && decide (v < railFloor s (w.die / 2)))
/-- WRPR of VOTE (R369, R370, R399): it waits for room in the journal. -/
def execVoteWrite (c : Ctl) (a : SIdx) (s : State) : Out :=
  priv s fun s => gate { ssrc := [(a, luA c)] } s fun s sf =>
    let v := (s.w.rdS a).toNat % 2 ^ 16
    if journalFull s then stall s .queue
    else if voteDenied s s.w v then finishS (journal sf 8 s.w.id.part s.w.id.vdev [v])
    else finishS (railsFollow (sf.modPart s.w.id.part fun p => { p with vote := v }))

/-! ## TRET (R331, R349) -/

/-- R332, R402: what waited for the warp to leave S mode. -/
def afterTret (s : State) : State :=
  let w := s.w
  if w.smode then s
  else
    let s := if w.haltReq then { s with w := { w with halted := true, haltReq := false } } else s
    if w.perchReq then perchStop s w.key 0 else s
/-- TRET by the frame's ACTION. In the cycle in which LEFT reaches 0, ACTION 3 does not complete (R353). -/
def tretBy (s : State) (f : List Word) : Out :=
  let s0 := s
  let s := charge (s.count 0) s.w.id.vdev s.w.die 0 0 1
  match frameAction f with
  | 0 => .next (afterTret { s with w := { frameResume s s.w f with stalled := false } })
  | 1 =>
    let w := frameRegs s.w f
    .next (endGang { s with w := w } w.id.lid w.id.gang 2)
  | 2 =>
    let w := frameRegs s.w f
    .next (becomeFaulted { s with w := w } w.key)
  | _ =>
    if (s.core s.w.core).left ≤ 1 || !coreQuiet s s.w.core then stall s0 .counter
    else
      let w := { frameResume s s.w f with stalled := false }
      .next (releaseCore { s with w := stopAgain w } w.core false)
def execTret (_c : Ctl) (s : State) : Out :=
  priv s fun s =>
    if !s.w.active then illegal s 2
    else gate {} s fun s _ =>
      match readFrame s s.w with
      | none => trap s { code := 4, taddr := systemFrameAddr s s.w }
      | some f =>
        if 3 < frameAction f ∨ (frameAction f = 3 ∧ frameCode f ≠ 0x20) then illegal s 2 else tretBy s f

/-! ## HALTG, RESUMEG (R332) -/

def execHaltg (_c : Ctl) (s : State) : Out :=
  priv s fun s => gate {} s fun _ sf => finishS (haltGang sf sf.w.id.lid sf.w.id.gang (some sf.w.key))
def execResumeg (_c : Ctl) (s : State) : Out :=
  priv s fun s => gate {} s fun _ sf => finishS (resumeGang sf sf.w.id.lid sf.w.id.gang)

/-! ## Shadow slots (R333) -/

/-- Stopped by HALTG, by R52 or by WARPCTL. -/
def slotStopped (w : Warp) : Bool := w.halted || w.stopped || w.life == .faulted
def slotWarp (s : State) (v : Word) : Option Warp :=
  if 32 ≤ v.toNat then none
  else (s.sibling? v.toNat).filter fun w => w.life != .exited && !w.smode && w.key != s.w.key
/-- The warp's ld and tl operations have completed. -/
def noReads (w : Warp) : Bool := w.cnt .ld == 0 && w.cnt .tl == 0
def execShsave (c : Ctl) (d a : SIdx) (s : State) : Out :=
  priv s fun s => gate { ssrc := [(a, luA c)], sdst := [d] } s fun s sf =>
    match slotWarp s (s.w.rdS a) with
    | none => finishS { sf with w := sf.w.wrS d 2 }
    | some w =>
      if !slotStopped w then finishS { sf with w := sf.w.wrS d 1 }
      else if !noReads w then stall s .counter
      else
        let sf := sf.modWarp w.key fun w => { w with shadow := true }
        finishS { sf with w := sf.w.wrS d 0 }
/-- Registers the restored warp takes from the pools are free. -/
def shrestFits (s : State) (w : Warp) : Bool :=
  let x := { w with shadow := false }
  decide (x.physV ≤ poolV s w.core) && decide (x.physS ≤ poolS s w.core)
/-- SHREST reserves under R60 and R62: victims are warps that are stopped or whose last attempt did not issue (log 26). A warp that was
never saved gives 1, its slot not being VALID, though R333's 2 fits as well (log 51). -/
def execShrest (c : Ctl) (d a : SIdx) (s : State) : Out :=
  priv s fun s => gate { ssrc := [(a, luA c)], sdst := [d] } s fun s sf =>
    match slotWarp s (s.w.rdS a) with
    | none => finishS { sf with w := sf.w.wrS d 2 }
    | some w =>
      if !w.shadow then finishS { sf with w := sf.w.wrS d 1 }
      else
        let sf := spillUntil w.core s.w.idx true (fun v => v.isStopped || v.stopped || v.stalled) (fun s => shrestFits s w) 32 sf
        if !shrestFits sf w then stall { sf with w := s.w } .header
        else
          let sf := sf.modWarp w.key fun w => { w with shadow := false }
          finishS { sf with w := sf.w.wrS d 0 }

/-! ## TLBINV (R334) -/

/-- The cached translations an operation removes. -/
def tlbHit (p : Part) (op : TlbOp) (v : Word) (e : Tlb) : Bool :=
  match op with
  | .all => e.asid == p.asid
  | .va => e.asid == p.asid && decide (e.va ≤ v.toNat) && decide (v.toNat < e.va + e.size)
  | .asid => e.asid == v.toNat % 2 ^ 16
/-- R378: whether it makes a PTBASE written under the current ASID take effect. -/
def newRoot (p : Part) (op : TlbOp) (v : Word) : Bool :=
  match op with
  | .all => true
  | .va => false
  | .asid => p.asid == v.toNat % 2 ^ 16
/-- An access in flight that may have used one of them. -/
def tlbUsed (s : State) (pid : Nat) (es : List Tlb) : Bool :=
  let hit := fun (a : Acc) => es.any fun e => decide (e.va ≤ a.va) && decide (a.va < e.va + e.size)
  let uses := fun (q : QCmd) => q.src.any hit || q.dst.any hit
  (s.allWarps.any fun w => w.id.part == pid && ((w.ops.any fun o => !o.done && !o.sp && o.accs.any hit) ||
    w.records.any fun r => match r.k with
      | .cmd _ q => uses q
      | _ => false)) ||
  s.clusters.any fun c => c.2.leases.any fun l => l.2.part == pid && l.2.queue.any uses
def execTlbinv (c : Ctl) (op : TlbOp) (a : SIdx) (s : State) : Out :=
  priv s fun s => gate { ssrc := [(a, luA c)] } s fun s sf =>
    let pid := s.w.id.part
    let p := s.part pid
    let es := p.tlb.filter (tlbHit p op (s.w.rdS a))
    if tlbUsed s pid es then stall s .counter
    else finishS (sf.modPart pid fun p => { p with
      tlb := p.tlb.filter fun e => !es.contains e, oldRoot := if newRoot p op (s.w.rdS a) then none else p.oldRoot })

/-! ## EVICT, CTRSEL, ASZREC, TABORT, WARPCTL (R335 to R339) -/

def execEvict (c : Ctl) (d a : SIdx) (s : State) : Out :=
  priv s fun s => gate { ssrc := [(a, luA c)], sdst := [d] } s fun s sf =>
    let key := (s.w.rdS a).toNat
    match (s.lease? s.w.cluster key).filter fun l => l.part == s.w.id.part && l.st != .evicted with
    | none => finishS { sf with w := sf.w.wrS d 1 }
    | some _ =>
      let sf := evictLease sf s.w.cluster key false
      finishS { sf with w := sf.w.wrS d 0 }
def execCtrsel (c : Ctl) (a : SIdx) (s : State) : Out :=
  priv s fun s => gate { ssrc := [(a, luA c)] } s fun s sf =>
    if 256 ≤ (s.w.rdS a).toNat then illegal s 2
    else finishS (sf.modCore s.w.core fun k => { k with ctrPage := (s.w.rdS a).toNat })
def execAszrec (c : Ctl) (d a b : SIdx) (s : State) : Out :=
  priv s fun s => gate { ssrc := [(a, luA c), (b, luB c)], sdst := [d], cls := some .st } s fun s sf =>
    let o : Op := { id := 0, cls := .st, k := .aszrec (s.w.rdS a) (s.w.rdS b), dst := .sca d, pc := s.w.p.pc }
    finishS { sf with w := addOp (sf.w.pendS d s.w.p.pc) o }
/-- R329: the warp of the issuer's gang that an operand names. -/
def gangWarp (s : State) (v : Word) : Option Warp :=
  if 256 ≤ v.toNat ∨ s.w.id.nblocks ≤ v.toNat / 32 ∨ s.w.id.nwarps ≤ v.toNat % 32 then none
  else (s.gangWarps s.w.id.lid s.w.id.gang).find? fun w => w.id.block == v.toNat / 32 && w.idx == v.toNat % 32
/-- TABORT: what it ends, it ends when it issues; it completes when all of that has completed (R338). -/
def execTabort (c : Ctl) (a : SIdx) (s : State) : Out :=
  priv s fun s => gate { ssrc := [(a, luA c)] } s fun s sf =>
    match gangWarp s (s.w.rdS a) with
    | none => finishS sf
    | some w =>
      let begun := s.w.stalled && s.w.wait == .engine
      if abortPending (if begun then s else abortWarp s w.key) w.key then
        stall (if begun then s else abortWarp s w.key) .engine
      else finishS (if begun then sf else abortWarp sf w.key)
def ctlStopped (w : Warp) : Bool := w.isStopped || w.stopped || w.life != .live
/-- R43: a holder is HOLDING unless its last attempt met something other than a register dependence: then it is RESIDENT, with its
baton. -/
def Warp.onlyRegs (w : Warp) : Bool := !w.stalled || (w.p.arrived.isNone && (w.wait == .reg || w.wait == .stream))
/-- R339: the state word. -/
def statWord (w : Warp) : Word :=
  let st : Nat := match w.life with
    | .faulted => 4
    | .exited => 5
    | .live => if waitsHeader w then 2 else if w.park.isSome || w.wasParked then 3 else if w.holding && w.onlyRegs then 1 else 0
  BitVec.ofNat 64 (st + 8 * w.halted.toNat + 256 * w.baton.getD 0xFF + 2 ^ 16 * min w.slips (2 ^ 32 - 1))
/-- A form of WARPCTL. -/
def warpctl (c : Ctl) (d a : SIdx) (k : Warp → State → State) (s : State) : Out :=
  priv s fun s => gate { ssrc := [(a, luA c)], sdst := [d] } s fun s sf =>
    match gangWarp s (s.w.rdS a) with
    | none => finishS { sf with w := sf.w.wrS d 2 }
    | some w => if !ctlStopped w then finishS { sf with w := sf.w.wrS d 1 } else finishS (k w sf)
def execWarpctlStat (c : Ctl) (d a : SIdx) (s : State) : Out :=
  warpctl c d a (fun w s => { s with w := s.w.wrS d (statWord w) }) s
def execWarpctlKill (c : Ctl) (d a : SIdx) (s : State) : Out :=
  warpctl c d a (fun w s =>
    let s := if w.life == .live then becomeFaulted s w.key else s
    { s with w := s.w.wrS d 0 }) s

/-! ## Encodings that are no instruction (R188) -/

def execUnassignedOpcode (_w : Word) (s : State) : Out := illegal s 1

end Sys2Proof.Machine
end

