-- ==== Sys2Proof/Machine/ScalarOps.lean ====
section
/-! DEFINITION. Scalar arithmetic (spec/09 R192 to R197): one result to one scalar, whatever exec holds. -/
namespace Sys2Proof.Machine

/-- R194, two scalar sources. -/
def sop2 (c : Ctl) (d a b : SIdx) (f : Word → Word → Word) (s : State) : Out :=
  sop [(a, luA c), (b, luB c)] d (fun w => f (w.rdS a) (w.rdS b)) s
/-- R194, R197, one scalar source. -/
def sop1 (c : Ctl) (d a : SIdx) (f : Word → Word) (s : State) : Out :=
  sop [(a, luA c)] d (fun w => f (w.rdS a)) s

def execSadd (c : Ctl) (d a b : SIdx) (s : State) : Out := sop2 c d a b (fun x y => x + y) s
def execSsub (c : Ctl) (d a b : SIdx) (s : State) : Out := sop2 c d a b (fun x y => x - y) s
def execSmul (c : Ctl) (d a b : SIdx) (s : State) : Out := sop2 c d a b (fun x y => x * y) s
def execSmulh (c : Ctl) (d a b : SIdx) (u : Bool) (s : State) : Out := sop2 c d a b (mulHi 64 u) s
def execSdiv (c : Ctl) (d a b : SIdx) (u : Bool) (s : State) : Out := sop2 c d a b (divS u) s
def execSrem (c : Ctl) (d a b : SIdx) (u : Bool) (s : State) : Out := sop2 c d a b (remS u) s
def execSand (c : Ctl) (d a b : SIdx) (s : State) : Out := sop2 c d a b (fun x y => x &&& y) s
def execSor (c : Ctl) (d a b : SIdx) (s : State) : Out := sop2 c d a b (fun x y => x ||| y) s
def execSxor (c : Ctl) (d a b : SIdx) (s : State) : Out := sop2 c d a b (fun x y => x ^^^ y) s
/-- Shift amounts use bits 5:0 (R194). -/
def execSshl (c : Ctl) (d a b : SIdx) (s : State) : Out := sop2 c d a b (fun x y => x <<< (y.toNat % 64)) s
def execSshr (c : Ctl) (d a b : SIdx) (s : State) : Out := sop2 c d a b (fun x y => x >>> (y.toNat % 64)) s
def execSsra (c : Ctl) (d a b : SIdx) (s : State) : Out := sop2 c d a b (fun x y => x.sshiftRight (y.toNat % 64)) s
def execSmin (c : Ctl) (d a b : SIdx) (s : State) : Out := sop2 c d a b minS s
def execSmax (c : Ctl) (d a b : SIdx) (s : State) : Out := sop2 c d a b maxS s
def execSminn (c : Ctl) (d a b : SIdx) (s : State) : Out := sop2 c d a b minU s
def execSmaxn (c : Ctl) (d a b : SIdx) (s : State) : Out := sop2 c d a b maxU s
def execScmp (c : Ctl) (d a b : SIdx) (p : Pred) (s : State) : Out :=
  sop2 c d a b (fun x y => if predHolds p x y then 1 else 0) s
def execSsel (c : Ctl) (d a b cc : SIdx) (s : State) : Out :=
  sop [(a, luA c), (b, luB c), (cc, luC c)] d (fun w => if w.rdS cc ≠ 0 then w.rdS a else w.rdS b) s
def execSmov (c : Ctl) (d a : SIdx) (s : State) : Out := sop1 c d a (fun x => x) s
def execSclz (c : Ctl) (d a : SIdx) (s : State) : Out := sop1 c d a (fun x => BitVec.ofNat 64 (leadZeros x)) s
def execSpopc (c : Ctl) (d a : SIdx) (s : State) : Out := sop1 c d a (fun x => BitVec.ofNat 64 (ones x)) s
/-- R196. -/
def execSbfx (c : Ctl) (d a : SIdx) (pos len1 : BitVec 6) (sgn : Bool) (s : State) : Out :=
  sop1 c d a (fun x => bfx x pos.toNat (len1.toNat + 1) sgn) s
/-- R196: reads its destination. -/
def execSbfi (c : Ctl) (d a : SIdx) (pos len1 : BitVec 6) (s : State) : Out :=
  sop [(a, luA c), (d, false)] d (fun w => bfi (w.rdS d) (w.rdS a) pos.toNat (len1.toNat + 1)) s
def execSaddi (c : Ctl) (d a : SIdx) (i : BitVec 32) (s : State) : Out := sop1 c d a (fun x => x + sx32 i) s
def execSandi (c : Ctl) (d a : SIdx) (i : BitVec 32) (s : State) : Out := sop1 c d a (fun x => x &&& sx32 i) s
def execSori (c : Ctl) (d a : SIdx) (i : BitVec 32) (s : State) : Out := sop1 c d a (fun x => x ||| sx32 i) s
def execSxori (c : Ctl) (d a : SIdx) (i : BitVec 32) (s : State) : Out := sop1 c d a (fun x => x ^^^ sx32 i) s
def execSshli (c : Ctl) (d a : SIdx) (n : BitVec 6) (s : State) : Out := sop1 c d a (fun x => x <<< n.toNat) s
def execSshri (c : Ctl) (d a : SIdx) (n : BitVec 6) (s : State) : Out := sop1 c d a (fun x => x >>> n.toNat) s
def execSsrai (c : Ctl) (d a : SIdx) (n : BitVec 6) (s : State) : Out := sop1 c d a (fun x => x.sshiftRight n.toNat) s
def execSmovi (_c : Ctl) (d : SIdx) (i : BitVec 32) (s : State) : Out := sop [] d (fun _ => sx32 i) s
/-- R197: bits 31:0 of the destination are kept. -/
def execShii (_c : Ctl) (d : SIdx) (i : BitVec 32) (s : State) : Out :=
  sop [(d, false)] d (fun w => i ++ (w.rdS d).extractLsb' 0 32) s
def execScmpi (c : Ctl) (d a : SIdx) (p : Pred) (i : BitVec 28) (s : State) : Out :=
  sop1 c d a (fun x => if predHolds p x (i.signExtend 64) then 1 else 0) s

end Sys2Proof.Machine
end

