-- ==== Sys2Proof/Machine/VecCross.lean ====
section
/-! DEFINITION. Cross-lane instructions and moves between scalar and vector (spec/10 R234 to R238; spec/05 R123, R124). -/
namespace Sys2Proof.Machine

/-- R234: the subgroup width; none if it exceeds W, which raises subcode MOD. -/
def groupW (W : Nat) (g : GCode) : Option Nat :=
  let n := match g with
    | .full => W | .g2 => 2 | .g4 => 4 | .g8 => 8 | .g16 => 16 | .g32 => 32 | .g64 => 64
  if n ≤ W then some n else none

/-- R235: the source lane for a requested position j. -/
def srcLane (G : Nat) (m : IdxMode) (L : Nat) (j : Int) : Nat :=
  let base := L - L % G
  if 0 ≤ j ∧ j < G then base + j.toNat
  else match m with
    | .wrap => base + (j % G).toNat
    | .clamp => base + (min (max j 0) (G - 1)).toNat
    | .own => L

/-- A shuffle: lane L receives the source's lane Src(L), active or not (R235). Poison and pending follow the vector source. -/
def shuffle (vs : List (VIdx × Bool)) (ss : List (SIdx × Bool)) (d a : VIdx) (ms : MIdx) (g : GCode) (m : IdxMode)
    (j : Warp → Nat → Nat → Int) (s : State) : Out :=
  match groupW s.W g with
  | none => illegal s 0x03
  | some G =>
    gate { vsrc := vs, ssrc := ss, vdst := [d], ms := ms } s fun s sf =>
      vwrite s sf d (s.w.activeMask ms) (fun L => s.w.lane a (srcLane G m L (j s.w G L))) fun s' => finishV s' 1

def execShfl (c : Ctl) (d a b : VIdx) (ms : MIdx) (g : GCode) (m : IdxMode) (s : State) : Out :=
  shuffle [(a, luA c), (b, luB c)] [] d a ms g m (fun w _ L => (w.lane b L).toInt) s
def execShflup (c : Ctl) (d a : VIdx) (n : BitVec 6) (ms : MIdx) (g : GCode) (m : IdxMode) (s : State) : Out :=
  shuffle [(a, luA c)] [] d a ms g m (fun _ G L => ((L % G : Nat) : Int) - n.toNat) s
def execShfldn (c : Ctl) (d a : VIdx) (n : BitVec 6) (ms : MIdx) (g : GCode) (m : IdxMode) (s : State) : Out :=
  shuffle [(a, luA c)] [] d a ms g m (fun _ G L => ((L % G : Nat) : Int) + n.toNat) s
def execShflx (c : Ctl) (d a : VIdx) (n : BitVec 6) (ms : MIdx) (g : GCode) (m : IdxMode) (s : State) : Out :=
  shuffle [(a, luA c)] [] d a ms g m (fun _ G L => (((L % G) ^^^ n.toNat : Nat) : Int)) s
def execBcast (c : Ctl) (d a : VIdx) (l : LaneSel) (ms : MIdx) (g : GCode) (m : IdxMode) (s : State) : Out :=
  match l with
  | .imm n => shuffle [(a, luA c)] [] d a ms g m (fun _ _ _ => (n.toNat : Int)) s
  | .reg b => shuffle [(a, luA c)] [(b, luB c)] d a ms g m (fun w _ _ => ((w.rdS b).extractLsb' 0 32).toInt) s

/-! ## Trees (R123, R124) -/

/-- A node: nothing, or a value with the flags raised at or below it. -/
abbrev Node := Option (Nat × Flags)
/-- R123: EMPTY adds nothing and causes no rounding; the lower subtree is operand A. -/
def combine (op : Nat → Nat → Nat × Flags) (x y : Node) : Node :=
  match x, y with
  | none, y => y
  | x, none => x
  | some (a, fa), some (b, fb) => let r := op a b; some (r.1, fa ||| fb ||| r.2)
/-- R123: TreeSum(lo, 2^k). -/
def treeSum (op : Nat → Nat → Nat × Flags) (leaf : Nat → Node) : Nat → Nat → Node
  | 0, lo => leaf lo
  | k + 1, lo => combine op (treeSum op leaf k lo) (treeSum op leaf k (lo + 2 ^ k))
/-- R124: lanes base to base + n − 1 in aligned blocks of falling size, combined from the left. -/
def scanSum (op : Nat → Nat → Nat × Flags) (leaf : Nat → Node) (n : Nat) : Nat → Nat → Node → Node
  | 0, lo, acc => if n % 2 = 1 then combine op acc (leaf lo) else acc
  | j + 1, lo, acc =>
    if n / 2 ^ (j + 1) % 2 = 1 then scanSum op leaf n j (lo + 2 ^ (j + 1)) (combine op acc (treeSum op leaf (j + 1) lo))
    else scanSum op leaf n j lo acc

/-- A lane's value as a leaf: EMPTY when inactive. -/
def leafOf (w : Warp) (a : VIdx) (m : Word) (L : Nat) : Node :=
  if m.getLsbD L then some ((w.lane a L).toNat, 0) else none

/-- R236, R237: what lane L receives of its subgroup, with the flags of the subgroup's tree. -/
def redLane (op : Warp → Nat → Nat → Nat × Flags) (a : VIdx) (G : Nat) (m : Word) (w : Warp) (L : Nat) : Lane × Flags :=
  match treeSum (op w) (leafOf w a m) G.log2 (L - L % G) with
  | some (v, fl) => (BitVec.ofNat 32 v, fl)
  | none => (0, 0)
/-- R110: a NaN that FREDMIN or FREDMAX delivers is quieted, also where it is the only active lane's and no node computes (log 46). -/
def redNum (mx : Bool) (a : VIdx) (G : Nat) (m : Word) (w : Warp) (L : Nat) : Lane × Flags :=
  let x := redLane (fun _ => f32.minmax mx) a G m w L
  match f32.dec x.1.toNat with
  | .nan s fr _ => (BitVec.ofNat 32 (f32.quiet s fr), x.2)
  | _ => x
/-- R237: the inclusive value of lane L, or of the nearest active lane below it with .EX. The flags are those of every
active lane's inclusive value, the highest's with .EX too (log 46). -/
def scanLane (op : Warp → Nat → Nat → Nat × Flags) (a : VIdx) (G : Nat) (ex : Bool) (m : Word) (w : Warp) (L : Nat) : Lane × Flags :=
  let base := L - L % G
  let incl (M : Nat) : Node := scanSum (op w) (fun x => leafOf w a m (base + x)) (M % G + 1) G.log2 0 none
  let fl := ((List.range G).map fun x => if m.getLsbD (base + x) then (incl (base + x)).elim (0 : Flags) Prod.snd else 0).foldl
    (fun (x : Flags) y => x ||| y) 0
  let src : Option Nat := if ex then ((List.range (L % G)).reverse.find? fun x => m.getLsbD (base + x)).map (base + ·) else some L
  match src with
  | some M => ((incl M).elim (0 : Lane) fun v => BitVec.ofNat 32 v.1, fl)
  | none => (0, fl)

/-- A reduction or scan over subgroups: every active lane of a subgroup in which an enabled flag was raised is recorded. -/
def treeOp (k : Nat) (c : Ctl) (d a : VIdx) (ms : MIdx) (g : GCode) (f : Nat → Word → Warp → Nat → Lane × Flags) (s : State) : Out :=
  match groupW s.W g with
  | none => illegal s 0x03
  | some G => fop k [(a, luA c)] d ms (fun w L => f G (w.activeMask ms) w L) s

/-- Integer operations raise no flag. -/
def intOp (f : Lane → Lane → Lane) (_ : Warp) (x y : Nat) : Nat × Flags := ((f (BitVec.ofNat 32 x) (BitVec.ofNat 32 y)).toNat, 0)

def execVredadd (c : Ctl) (d a : VIdx) (ms : MIdx) (g : GCode) (s : State) : Out :=
  treeOp 1 c d a ms g (redLane (intOp fun x y => x + y) a) s
def execVredmin (c : Ctl) (d a : VIdx) (ms : MIdx) (g : GCode) (u : Bool) (s : State) : Out :=
  treeOp 1 c d a ms g (redLane (intOp (if u then minU else minS)) a) s
def execVredmax (c : Ctl) (d a : VIdx) (ms : MIdx) (g : GCode) (u : Bool) (s : State) : Out :=
  treeOp 1 c d a ms g (redLane (intOp (if u then maxU else maxS)) a) s
def execFredadd (c : Ctl) (d a : VIdx) (ms : MIdx) (g : GCode) (r : Rnd) (s : State) : Out :=
  treeOp 2 c d a ms g (redLane (fun w => f32.add (modeOf w r)) a) s
def execFredmin (c : Ctl) (d a : VIdx) (ms : MIdx) (g : GCode) (s : State) : Out :=
  treeOp 2 c d a ms g (redNum false a) s
def execFredmax (c : Ctl) (d a : VIdx) (ms : MIdx) (g : GCode) (s : State) : Out :=
  treeOp 2 c d a ms g (redNum true a) s
def execVscan (c : Ctl) (d a : VIdx) (ms : MIdx) (g : GCode) (ex : Bool) (s : State) : Out :=
  treeOp 1 c d a ms g (fun G => scanLane (intOp fun x y => x + y) a G ex) s
def execFscan (c : Ctl) (d a : VIdx) (ms : MIdx) (g : GCode) (ex : Bool) (r : Rnd) (s : State) : Out :=
  treeOp 2 c d a ms g (fun G => scanLane (fun w => f32.add (modeOf w r)) a G ex) s

/-! ## Moves (R238) -/

/-- R238: the lane an operand names, modulo W. -/
def laneSel (w : Warp) : LaneSel → Nat
  | .imm n => n.toNat % w.W
  | .reg b => (w.rdS b).toNat % 2 ^ 32 % w.W
def selSrc (c : Ctl) : LaneSel → List (SIdx × Bool)
  | .imm _ => []
  | .reg b => [(b, luB c)]

def execVfroms (c : Ctl) (d : VIdx) (a : SIdx) (ms : MIdx) (s : State) : Out :=
  gate { ssrc := [(a, luA c)], vdst := [d], ms := ms } s fun s sf =>
    vwrite s sf d (s.w.activeMask ms) (fun _ => (s.w.rdS a).extractLsb' 0 32) fun s' => finishV s' 1
/-- R238: reads lane l whether or not it is active; with no active lane it does nothing (R218). -/
def execVtos (c : Ctl) (d : SIdx) (a : VIdx) (l : LaneSel) (ms : MIdx) (sx : Bool) (s : State) : Out :=
  let off := decide (s.w.activeMask 0 = 0)
  gate { vsrc := [(a, luA c)], ssrc := selSrc c l, sdst := if off then [] else [d], ms := ms } s fun s sf =>
    if off then finishV sf 1
    else
      let x := s.w.lane a (laneSel s.w l)
      finishV { sf with w := sf.w.wrS d (if sx then x.signExtend 64 else x.setWidth 64) } 1
/-- R238. Into a write port, where R71 appends an element for each active lane and R238 gives a value for lane l alone, the model writes
lane l's element if it is active; the other positions stay unwritten, and lane l alone can exhaust the port (log 52). -/
def execVins (c : Ctl) (d : VIdx) (a : SIdx) (l : LaneSel) (ms : MIdx) (s : State) : Out :=
  let m := s.w.activeMask ms &&& (1#64 <<< laneSel s.w l)
  if (s.w.portOf d).isNone && m == 0 then
    gate { ssrc := (a, luA c) :: selSrc c l, ms := ms, vec := true } s fun _ sf => finishV sf 1
  else
    gate { ssrc := (a, luA c) :: selSrc c l, vdst := [d], ms := ms } s fun s sf =>
      vwrite s sf d m (fun _ => (s.w.rdS a).extractLsb' 0 32) fun s' => finishV s' 1

end Sys2Proof.Machine
end

