-- ==== Sys2Proof/Machine/Dictionary.lean ====
section
/-! DEFINITION. Dictionary codes (spec/08 R184 to R186): expansion, the check of a dictionary's entries, and the meaning of a code. -/
namespace Sys2Proof.Machine

/-- R184: the instruction an entry becomes under k: its vector fields rebased by 8k; none where the result has no encoding. -/
def rebased (k : BitVec 4) (w : Word) : Option Instr :=
  match decode w with
  | .error _ => none
  | .ok i =>
    let j := rebase ((k.setWidth 8 : BitVec 8) <<< 3) i
    match encode j with
    | none => none
    | some x => match decode x with
      | .ok j' => if j' = j then some j else none
      | .error _ => none

/-- R186: an entry the core refuses to load. -/
def entryBad (w : Word) : Bool :=
  let op := (wOp w).toNat
  wG w == 3 ||
  (wG w == 2 && ((decide (1 ≤ op) && decide (op ≤ 4)) || op == 6 || op == 7 || (decide (0x10 ≤ op) && decide (op ≤ 0x1A)) || op == 0x60 ||
    op == 0x82)) ||
  (match decode w with
   | .ok _ | .error .modv => false
   | .error _ => true)
/-- R184, R190: an entry with a WID its instruction does not accept: where rebasing makes a register field invalid, RESERVED comes
before MOD. The vector fields of the M format are IDX and, but for PREF, D. -/
def modOrReserved (k : BitVec 4) (w : Word) : Nat :=
  let op := (wOp w).toNat
  let by8 : BitVec 8 := (k.setWidth 8 : BitVec 8) <<< 3
  if wG w == 1 && (op == 0 || op == 1 || op == 4 || (decide (0x10 ≤ op) && decide (op ≤ 0x3A))) then
    let f := MF.of (wMid w) (wLo w)
    let idx := if f.idx = 255 then 255 else f.idx + by8
    if f.idx ≠ 255 ∧ idx = 255 then 2
    else match decMem op (wCtl w) { f with idx := idx, d := if op = 4 then f.d else f.d + by8 } with
      | .error .reserved => 2
      | _ => 3
  else 3

/-- The dictionary entry a code names, if it names one (R184). -/
def codeEntry (s : State) (i : BitVec 10) : Option Word :=
  if s.w.id.dictcount ≤ i.toNat || !Hdr.dict s.w.p.hdr.word then none else (s.core s.w.core).dict[i.toNat]?
/-- The instruction a code names, or the subcode of R190's checks that it fails. -/
def expand (s : State) (k : BitVec 4) (i : BitVec 10) : Except Nat Instr :=
  let d := (s.core s.w.core).dict
  match d[i.toNat]? with
  | none => .error 7
  | some e =>
    if s.w.id.dictcount ≤ i.toNat || !Hdr.dict s.w.p.hdr.word then .error 7
    else if isPriv e && !s.w.smode then .error 4
    else match decode e with
      | .error .modv => .error (modOrReserved k e)
      | _ => match rebased k e with
        | none => .error 2
        | some j => .ok j

/-- The meaning of an expansion: the instruction's own, for every instruction that has a 64-bit encoding. The control transfers stand here
too, though no core loads an entry that holds one (R186); what has no encoding is no expansion. -/
def execEntry (i : Instr) (s : State) : Out :=
  match i with
  | .vadd c d a b ms m => execVadd c d a b ms m s
  | .vsub c d a b ms m => execVsub c d a b ms m s
  | .vmul c d a b ms => execVmul c d a b ms s
  | .vmulh c d a b ms u => execVmulh c d a b ms u s
  | .vmad c d a b cc ms => execVmad c d a b cc ms s
  | .vand c d a b ms => execVand c d a b ms s
  | .vor c d a b ms => execVor c d a b ms s
  | .vxor c d a b ms => execVxor c d a b ms s
  | .vshl c d a b ms => execVshl c d a b ms s
  | .vshr c d a b ms => execVshr c d a b ms s
  | .vsra c d a b ms => execVsra c d a b ms s
  | .vmin c d a b ms => execVmin c d a b ms s
  | .vmax c d a b ms => execVmax c d a b ms s
  | .vminn c d a b ms => execVminn c d a b ms s
  | .vmaxn c d a b ms => execVmaxn c d a b ms s
  | .vabs c d a ms m => execVabs c d a ms m s
  | .vneg c d a ms m => execVneg c d a ms m s
  | .vclz c d a ms => execVclz c d a ms s
  | .vpopc c d a ms => execVpopc c d a ms s
  | .vcmp c d a b ms p => execVcmp c d a b ms p s
  | .vsel c d a b cc ms => execVsel c d a b cc ms s
  | .vmov c f ms => execVmov c f ms s
  | .vlane c d ms => execVlane c d ms s
  | .vaddi c d a ms imm => execVaddi c d a ms imm s
  | .vandi c d a ms imm => execVandi c d a ms imm s
  | .vori c d a ms imm => execVori c d a ms imm s
  | .vxori c d a ms imm => execVxori c d a ms imm s
  | .vshli c d a ms n => execVshli c d a ms n s
  | .vshri c d a ms n => execVshri c d a ms n s
  | .vsrai c d a ms n => execVsrai c d a ms n s
  | .vmovi c d ms imm => execVmovi c d ms imm s
  | .vcmpi c d a ms p imm => execVcmpi c d a ms p imm s
  | .fadd c d a b ms r => execFadd c d a b ms r s
  | .fsub c d a b ms r => execFsub c d a b ms r s
  | .fmul c d a b ms r => execFmul c d a b ms r s
  | .ffma c d a b cc ms r => execFfma c d a b cc ms r s
  | .fmin c d a b ms => execFmin c d a b ms s
  | .fmax c d a b ms => execFmax c d a b ms s
  | .fabs c d a ms => execFabs c d a ms s
  | .fneg c d a ms => execFneg c d a ms s
  | .fcmp c d a b ms p => execFcmp c d a b ms p s
  | .fclass c d a ms => execFclass c d a ms s
  | .fdiv c d a b ms r => execFdiv c d a b ms r s
  | .fsqrt c d a ms r => execFsqrt c d a ms r s
  | .frcp c d a ms => execFrcp c d a ms s
  | .frsq c d a ms => execFrsq c d a ms s
  | .fexp2 c d a ms => execFexp2 c d a ms s
  | .flog2 c d a ms => execFlog2 c d a ms s
  | .fsin c d a ms => execFsin c d a ms s
  | .fcos c d a ms => execFcos c d a ms s
  | .fscale c d a b ms r => execFscale c d a b ms r s
  | .ftanh c d a ms => execFtanh c d a ms s
  | .hfma2 c d a b cc ms r bf => execHfma2 c d a b cc ms r bf s
  | .hadd2 c d a b ms r bf => execHadd2 c d a b ms r bf s
  | .hmul2 c d a b ms r bf => execHmul2 c d a b ms r bf s
  | .scacc c d a b cc ms => execScacc c d a b cc ms s
  | .cvt c d a ms dst src r => execCvt c d a ms dst src r s
  | .pack c d a b ms t hi r => execPack c d a b ms t hi r s
  | .unpack c d a ms t n => execUnpack c d a ms t n s
  | .shfl c d a b ms g m => execShfl c d a b ms g m s
  | .shflup c d a n ms g m => execShflup c d a n ms g m s
  | .shfldn c d a n ms g m => execShfldn c d a n ms g m s
  | .shflx c d a n ms g m => execShflx c d a n ms g m s
  | .bcast c d a l ms g m => execBcast c d a l ms g m s
  | .vredadd c d a ms g => execVredadd c d a ms g s
  | .vredmin c d a ms g u => execVredmin c d a ms g u s
  | .vredmax c d a ms g u => execVredmax c d a ms g u s
  | .fredadd c d a ms g r => execFredadd c d a ms g r s
  | .fredmin c d a ms g => execFredmin c d a ms g s
  | .fredmax c d a ms g => execFredmax c d a ms g s
  | .vscan c d a ms g ex => execVscan c d a ms g ex s
  | .fscan c d a ms g ex r => execFscan c d a ms g ex r s
  | .vfroms c d a ms => execVfroms c d a ms s
  | .vtos c d a l ms sx => execVtos c d a l ms sx s
  | .vins c d a l ms => execVins c d a l ms s
  | .sbind c d a b cc wr esize => execSbind c d a b cc wr esize s
  | .sunbind c d => execSunbind c d s
  | .sseek c d a rel => execSseek c d a rel s
  | .spos c d a f => execSpos c d a f s
  | .ld c d m w => execLd c d m w s
  | .st c d m w => execSt c d m w s
  | .ldsc c d m w => execLdsc c d m w s
  | .stsc c d m w => execStsc c d m w s
  | .pref c m w => execPref c m w s
  | .atomAdd c d m w64 => execAtomAdd c d m w64 s
  | .atomSub c d m w64 => execAtomSub c d m w64 s
  | .atomAnd c d m w64 => execAtomAnd c d m w64 s
  | .atomOr c d m w64 => execAtomOr c d m w64 s
  | .atomXor c d m w64 => execAtomXor c d m w64 s
  | .atomMin c d m w64 => execAtomMin c d m w64 s
  | .atomMax c d m w64 => execAtomMax c d m w64 s
  | .atomMinn c d m w64 => execAtomMinn c d m w64 s
  | .atomMaxn c d m w64 => execAtomMaxn c d m w64 s
  | .atomXchg c d m w64 => execAtomXchg c d m w64 s
  | .atomCas c d m w64 => execAtomCas c d m w64 s
  | .redAdd c d m w64 => execRedAdd c d m w64 s
  | .redSub c d m w64 => execRedSub c d m w64 s
  | .redAnd c d m w64 => execRedAnd c d m w64 s
  | .redOr c d m w64 => execRedOr c d m w64 s
  | .redXor c d m w64 => execRedXor c d m w64 s
  | .redMin c d m w64 => execRedMin c d m w64 s
  | .redMax c d m w64 => execRedMax c d m w64 s
  | .redMinn c d m w64 => execRedMinn c d m w64 s
  | .redMaxn c d m w64 => execRedMaxn c d m w64 s
  | .fatomAdd c d m => execFatomAdd c d m s
  | .fatomMin c d m => execFatomMin c d m s
  | .fatomMax c d m => execFatomMax c d m s
  | .fredAdd c d m => execFredAdd c d m s
  | .fredMin c d m => execFredMin c d m s
  | .fredMax c d m => execFredMax c d m s
  | .ldres c d m w64 => execLdres c d m w64 s
  | .stcon c d m w64 => execStcon c d m w64 s
  | .fence c sc => execFence c sc s
  | .barinit c d base off => execBarinit c d base off s
  | .bararr c base off => execBararr c base off s
  | .barexp c d base off => execBarexp c d base off s
  | .barwait c d base off => execBarwait c d base off s
  | .bartest c d base off clr => execBartest c d base off clr s
  | .bsync c => execBsync c s
  | .gsync c => execGsync c s
  | .lsync c => execLsync c s
  | .publish c d base off => execPublish c d base off s
  | .tdef c td k => execTdef c td k s
  | .tnew c h k => execTnew c h k s
  | .twrite c td v row => execTwrite c td v row s
  | .tseal c td => execTseal c td s
  | .tread c v ta row => execTread c v ta row s
  | .tkill c ta => execTkill c ta s
  | .tstat c h ta => execTstat c h ta s
  | .tload c td h sp f => execTload c td h sp f s
  | .tstore c ta h sp plane => execTstore c ta h sp plane s
  | .lease c h k sh => execLease c h k sh s
  | .leaset c h k sh => execLeaset c h k sh s
  | .vacate c h => execVacate c h s
  | .lstat c d h => execLstat c d h s
  | .mxloadb c h ta kb nb f => execMxloadb c h ta kb nb f s
  | .mxrun c h ta cnt r f => execMxrun c h ta cnt r f s
  | .mxdrain c td h nb r z bar => execMxdrain c td h nb r z bar s
  | .mxzero c h r => execMxzero c h r s
  | .mxconv c h r f sp => execMxconv c h r f sp s
  | .cvshape c h => execCvshape c h s
  | .dmcopy c h k => execDmcopy c h k s
  | .dmgather c h v n k => execDmgather c h v n k s
  | .dmscatter c h v n k => execDmscatter c h v n k s
  | .dmfill c h spd bar => execDmfill c h spd bar s
  | .clreduce c h tag op ty bar => execClreduce c h tag op ty bar s
  | .clgather c h tag bar => execClgather c h tag bar s
  | .clbcast c h tag bar => execClbcast c h tag bar s
  | .nop c => execNop c s
  | .setfs c a => execSetfs c a s
  | .csrrd c d n => execCsrrd c d n s
  | .csrwr c n a => execCsrwr c n a s
  | .inboxClear c a => execInboxClear c a s
  | .invstateAbandon c a => execInvstateAbandon c a s
  | .waitc c cls n => execWaitc c cls n s
  | .gtime c d => execGtime c d s
  | .trap c n => execTrap c n s
  | .trapLazy c => execTrapLazy c s
  | .brk c n => execBrk c n s
  | .sadd c d a b => execSadd c d a b s
  | .ssub c d a b => execSsub c d a b s
  | .smul c d a b => execSmul c d a b s
  | .smulh c d a b u => execSmulh c d a b u s
  | .sdiv c d a b u => execSdiv c d a b u s
  | .srem c d a b u => execSrem c d a b u s
  | .sand c d a b => execSand c d a b s
  | .sor c d a b => execSor c d a b s
  | .sxor c d a b => execSxor c d a b s
  | .sshl c d a b => execSshl c d a b s
  | .sshr c d a b => execSshr c d a b s
  | .ssra c d a b => execSsra c d a b s
  | .smin c d a b => execSmin c d a b s
  | .smax c d a b => execSmax c d a b s
  | .sminn c d a b => execSminn c d a b s
  | .smaxn c d a b => execSmaxn c d a b s
  | .scmp c d a b p => execScmp c d a b p s
  | .ssel c d a b cc => execSsel c d a b cc s
  | .smov c d a => execSmov c d a s
  | .sclz c d a => execSclz c d a s
  | .spopc c d a => execSpopc c d a s
  | .sbfx c d a pos len1 sgn => execSbfx c d a pos len1 sgn s
  | .sbfi c d a pos len1 => execSbfi c d a pos len1 s
  | .saddi c d a imm => execSaddi c d a imm s
  | .sandi c d a imm => execSandi c d a imm s
  | .sori c d a imm => execSori c d a imm s
  | .sxori c d a imm => execSxori c d a imm s
  | .sshli c d a n => execSshli c d a n s
  | .sshri c d a n => execSshri c d a n s
  | .ssrai c d a n => execSsrai c d a n s
  | .smovi c d imm => execSmovi c d imm s
  | .shii c d imm => execShii c d imm s
  | .scmpi c d a p imm => execScmpi c d a p imm s
  | .mand c d a b => execMand c d a b s
  | .mor c d a b => execMor c d a b s
  | .mxor c d a b => execMxor c d a b s
  | .mandn c d a b => execMandn c d a b s
  | .mnot c d a => execMnot c d a s
  | .mmov c d a => execMmov c d a s
  | .mcnt c d a => execMcnt c d a s
  | .mfirst c d a => execMfirst c d a s
  | .mfroms c d a => execMfroms c d a s
  | .mtos c d a => execMtos c d a s
  | .rdpr c d n => execRdpr c d n s
  | .wrpr c n a => execWrpr c n a s
  | .voteWrite c a => execVoteWrite c a s
  | .haltg c => execHaltg c s
  | .resumeg c => execResumeg c s
  | .shsave c d a => execShsave c d a s
  | .shrest c d a => execShrest c d a s
  | .tlbinv c op a => execTlbinv c op a s
  | .evict c d a => execEvict c d a s
  | .ctrsel c a => execCtrsel c a s
  | .aszrec c d a b => execAszrec c d a b s
  | .tabort c a => execTabort c a s
  | .warpctlStat c d a => execWarpctlStat c d a s
  | .warpctlKill c d a => execWarpctlKill c d a s
  | .pass c d a => execPass c d a s
  | .passi c d w => execPassi c d w s
  | .passx c d a b q => execPassx c d a b q s
  | .passf c d => execPassf c d s
  | .exit c => execExit c s
  | .exitp c a => execExitp c a s
  | .br c off => execBr c off s
  | .brz c a off => execBrz c a off s
  | .brnz c a off => execBrnz c a off s
  | .brnone c m off => execBrnone c m off s
  | .brany c m off => execBrany c m off s
  | .brall c m off => execBrall c m off s
  | .call c off => execCall c off s
  | .calli c v cls => execCalli c v cls s
  | .ret c => execRet c s
  | .split c m off => execSplit c m off s
  | .join c => execJoin c s
  | .inv c o => execInv c o s
  | .tret c => execTret c s
  | .unassignedOpcode w => execUnassignedOpcode w s
  | _ => illegal s 2

/-- R184, R185: a code executes as its expansion, in one parcel. -/
def execDictionaryCode (k : BitVec 4) (i : BitVec 10) (s : State) : Out :=
  let s := { s with ilen := 2 }
  match expand s k i with
  | .error sub => illegal s sub
  | .ok j => execEntry j s

end Sys2Proof.Machine
end

