-- ==== Sys2Proof/Machine/Fetch.lean ====
section
/-! DEFINITION. What stands at a warp's program counter (spec/08 R172 to R177, R190): header or body position, the checks of R190 in their order, and the rules a routine run by INV must meet (spec/12 R277). -/
namespace Sys2Proof.Machine

inductive Fetched where
  | header (h : Word)
  | body (i : Instr) (ilen : Nat)
  | trap (t : TrapInfo)
  deriving DecidableEq, Repr

def illegalInfo (sub : Nat) : TrapInfo := { code := 1, sub := sub }

/-- R174: control transfers. -/
def isTransfer (i : Instr) : Bool :=
  match i with
  | .br _ _ | .brz _ _ _ | .brnz _ _ _ | .brnone _ _ _ | .brany _ _ _ | .brall _ _ _ | .call _ _ | .calli _ _ _ | .ret _
  | .exit _ | .exitp _ _ | .tret _ => true
  | _ => false
/-- The PASS forms, EXIT and EXITP, which no tenure transfer stops (R36, R42). -/
def isPassOrExit (i : Instr) : Bool :=
  match i with
  | .pass _ _ _ | .passi _ _ _ | .passx _ _ _ _ _ | .passf _ _ | .exit _ | .exitp _ _ => true
  | _ => false

/-- R173: whether an address is the start of an instruction or code of a body, walking from its first parcel. -/
def startsAt (s : State) (w : Warp) (a : Nat) : Nat → Nat → Bool
  | 0, cur => cur == a
  | n + 1, cur =>
    if a ≤ cur then cur == a
    else match fetchParcel s w cur with
      | .error _ => false
      | .ok p => startsAt s w a n (cur + if p / 2 ^ 14 = 3 then 2 else 8)

/-- R277: what a routine may not hold. -/
def monoBadWord (x : Word) : Bool :=
  let op := (wOp x).toNat
  (wG x == 1 && op != 0 && op != 2) ||
  (wG x == 2 && ((decide (1 ≤ op) && decide (op ≤ 7)) || op == 9 || op == 0x0C || op == 0x0D ||
    (decide (0x10 ≤ op) && decide (op ≤ 0x17)) || op == 0x19 || op == 0x1A || op == 0x60))
def writesBracket (i : Instr) : Bool :=
  match i with
  | .vmov _ (.bv _ _) _ => true
  | _ => false
def monoBad (w : Warp) (r : InvRun) (i : Instr) : Bool :=
  (match encode i with
   | some x => monoBadWord x
   | none => false) ||
  (vdests i).any (fun d => d == r.o.x || d == r.o.x + 1 || d == r.o.tgt) || writesBracket i || mdest i == some 0 ||
  (vfields i).any (fun d => (w.portOf d).isSome) ||
  (match i with
   | .ret _ => false
   | _ => decide (64 ≤ r.n))

/-- R190: the later decode checks that need the machine: a group or a row beyond what W admits (8), an INV without its CALL (9). -/
def lateCheck (s : State) (i : Instr) : Option Nat :=
  let grp := fun (g : GCode) => if (groupW s.W g).isNone then some 3 else none
  let row := fun (r : BitVec 4) => if rowBad s r.toNat then some 3 else none
  match i with
  | .shfl _ _ _ _ _ g _ | .shflup _ _ _ _ _ g _ | .shfldn _ _ _ _ _ g _ | .shflx _ _ _ _ _ g _ | .bcast _ _ _ _ _ g _
  | .vredadd _ _ _ _ g | .vredmin _ _ _ _ g _ | .vredmax _ _ _ _ g _ | .fredadd _ _ _ _ g _ | .fredmin _ _ _ _ g
  | .fredmax _ _ _ _ g | .vscan _ _ _ _ g _ | .fscan _ _ _ _ g _ _ => grp g
  | .twrite _ _ _ r | .tread _ _ _ r | .scacc _ _ (.tile _ r) _ _ _ => row r
  | .inv _ _ => if (invCall s).isNone then some 0x0B else none
  | _ => none
/-- An instruction at a body position, screened by the routine rules when an INV runs (R277), after its decode checks (R190). -/
def screened (s : State) (i : Instr) (ilen : Nat) : Fetched :=
  match s.w.inv with
  | none => .body i ilen
  | some r =>
    let j := match i with
      | .dictionaryCode k n => (expand s k n).toOption
      | i => some i
    match j.bind (lateCheck s) with
    | some sub => .trap (illegalInfo sub)
    | none => if j.any (monoBad s.w r) then .trap (illegalInfo 9) else .body i ilen

/-- The address of the first parcel of an instruction that cannot be fetched. -/
def badParcel (s : State) (w : Warp) (a : Nat) : Nat :=
  (([a, a + 2, a + 4, a + 6].find? fun x => match fetchParcel s w x with
    | .error _ => true
    | .ok _ => false).getD a) % 2 ^ 56

/-- R190, checks 5 to 9, on a 64-bit word at a body position. -/
def checkWord (s : State) (x : Word) : Fetched :=
  if unassigned x then .body (.unassignedOpcode x) 8
  else if isPriv x && !s.w.smode then .trap (illegalInfo 4)
  else match decode x with
    | .error .opcode => .trap (illegalInfo 1)
    | .error .reserved => .trap (illegalInfo 2)
    | .error .modv => .trap (illegalInfo 3)
    | .ok i =>
      if isTransfer i && s.w.p.pc + 8 != Hdr.endAddr s.w.p.hdr then .trap (illegalInfo 6) else screened s i 8

/-- A body position. -/
def fetchBody (s : State) : Fetched :=
  let w := s.w
  let pc := w.p.pc
  let first := w.p.hdr.addr + 8
  if w.p.chk && !(decide (first ≤ pc) && decide (pc < Hdr.endAddr w.p.hdr) && startsAt s w pc (Hdr.len w.p.hdr.word) first) then
    .trap (illegalInfo 6)
  else match fetchParcel s w pc with
    | .error c => .trap { code := c, taddr := pc % 2 ^ 56 }
    | .ok p =>
      if isDictCode (BitVec.ofNat 16 p) then screened s (decodeDict (BitVec.ofNat 16 p)) 2
      else match fetch4 s w pc with
        | .error c => .trap { code := c, taddr := badParcel s w pc }
        | .ok x => if Hdr.endAddr w.p.hdr < pc + 8 then .trap (illegalInfo 6) else checkWord s x

/-- A header position: the header word, its check (R177), or a fall-through that meets none (R175). -/
def fetchHeader (s : State) : Fetched :=
  let pc := s.w.p.pc
  let out := match s.w.inv with
    | none => false
    | some r => !(pc == r.target && r.n == 0)
  if out then .trap (illegalInfo 9)
  else match headerAt s s.w pc with
    | .error c => .trap { code := c, taddr := pc % 2 ^ 56 }
    | .ok none => .trap { code := 2, taddr := pc % 2 ^ 56, tpc := some (pc % 2 ^ 56) }
    | .ok (some h) => if Hdr.bad h then .trap { code := 1, sub := 5, taddr := pc } else .header h

/-- What the warp's current path comes to next. -/
def fetched (s : State) : Fetched := if s.w.p.atHdr then fetchHeader s else fetchBody s

/-- The S bit of a code: its entry's, whether or not the expansion would trap (R178, R184). -/
def codeSafe (s : State) (i : Instr) : Bool :=
  match i with
  | .dictionaryCode _ n => (codeEntry s n).any fun x => x.getLsbD 12
  | _ => false

/-- Waits at which a warp may be stopped (R52, R76, R266); PARKED and WAITING-HEADER are seen from the state. -/
def Wait.safe : Wait → Bool
  | .counter | .full | .fence | .barrier | .sync | .queue => true
  | _ => false
/-- R52: the S bit of the instruction, or SAFE of the header, that stands at the program counter, whether or not it would trap. -/
def markedSafe (s : State) : Bool :=
  let w := s.w
  if w.p.atHdr then
    match headerAt s w w.p.pc with
    | .ok (some h) => Hdr.safe h
    | _ => false
  else match fetchParcel s w w.p.pc with
    | .error _ => false
    | .ok p =>
      if isDictCode (BitVec.ofNat 16 p) then codeSafe s (decodeDict (BitVec.ofNat 16 p))
      else match fetch4 s w w.p.pc with
        | .ok x => x.getLsbD 12
        | .error _ => false
/-- R70: an instruction of the warp has started its element reads, at issue or recorded at a tile name. -/
def startedReads (w : Warp) : Bool := w.p.stage.isSome || w.records.any fun pk => !pk.port0.isEmpty
/-- R52: the warp stands at a safe point. Inside an INV only its iteration boundaries are (R281); an instruction whose element reads
have started is past its boundary (R70). The wait is that of the last attempt, which the holder's turn has just made (Issue: turn). -/
def safePoint (s : State) : Bool :=
  let w := s.w
  if w.inv.isSome then atBoundary w
  else (w.park.isSome && !startedReads w) || (headerNeed s w).any (fun r => !fits s w r) ||
    (!startedReads w && w.entry.isNone && ((w.stalled && w.wait.safe) || markedSafe s))

end Sys2Proof.Machine
end

