-- ==== Sys2Proof/Machine/Preempt.lean ====
section
/-! DEFINITION. Pre-emption and slices (spec/18 R347 to R353, spec/19 R366). -/
namespace Sys2Proof.Machine

/-- R52, R96: the warp stops at its boundary; what it has recorded is withdrawn and its load reservation is lost (R51). -/
def stopWarp (s : State) (k : Nat) : State :=
  let parked := (s.warp? k).any fun w => w.park.isSome
  (withdrawAll s k).modWarp k fun w =>
    let w := match w.inv with
      | some r => invStop w r
      | none => w
    { w.clearRes with stopped := true, stopReq := false, pendSync := none, wasParked := w.wasParked || parked }
/-- A warp that counts as stopped for R348 (R353). -/
def preStopped (w : Warp) : Bool := !w.smode && (w.stopped || w.isStopped)
/-- The cores of a partition that hold a block. -/
def partCores (s : State) (pid : Nat) : List Nat :=
  (s.cores.filter fun e => coreIn s pid e.1 && e.2.block.isSome).map Prod.fst

/-- R347: every core of the partition is asked to stop. -/
def startPreempt (s : State) (pid : Nat) : State :=
  (partCores s pid).foldl (fun s c =>
    let s := s.modCore c fun k => { k with pre := some {}, left := k.budget }
    (s.blockWarps c).foldl (fun s w => if w.life == .live then s.modWarp w.key fun w => { w with stopReq := true } else s) s) s

/-- R52, R70: a warp asked to stop that stops where it stands: one without a baton, or stopped already, of which no instruction has
started element reads. -/
def stopsAtOnce (w : Warp) : Bool := (w.isStopped || !w.holding) && !startedReads w
/-- PREEMPT_STOP: in U mode, at a safe point; a warp that holds no baton stops where it stands. -/
def preemptStop (s : State) (k : Nat) : State :=
  match s.warp? k with
  | none => s
  | some w =>
    if !w.stopReq || w.smode || w.life != .live then s
    else if stopsAtOnce w || safePoint (s.focus k) then stopWarp s k
    else s
def execPreemptStop (s : State) : Out := .next (preemptStop s s.arg.warp)

/-- The lowest live warp of a core. -/
def lowestLive (s : State) (core : Nat) : Option Warp := (s.blockWarps core).find? fun w => w.life == .live
/-- R348: every live warp of the core has stopped, before LEFT has reached 0 (R350). -/
def handlerDue (s : State) (core : Nat) : Bool :=
  (match (s.core core).pre with
   | some p => !p.entered
   | none => false) && (s.core core).left != 0 &&
  (s.blockWarps core).all (fun w => w.life != .live || preStopped w) &&
  ((lowestLive s core).isSome || coreQuiet s core)
/-- PREEMPT_HANDLER_ENTRY; a core with no live warp is released at once. -/
def preemptEntry (s : State) (core : Nat) : State :=
  if handlerDue s core then
    match lowestLive s core with
    | none => releaseCore s core false
    | some w =>
      let s := s.modCore core fun c => { c with pre := some { entered := true } }
      takeTrap ((s.modWarp w.key toHandler).focus w.key) { code := 0x20 }
  else s
def execPreemptHandlerEntry (s : State) : Out := .next (preemptEntry s s.arg.core)

/-- R350: a warp stops at its next instruction boundary; a handler's progress in S mode is discarded. -/
def forceStop (s : State) (k : Nat) : State :=
  match s.warp? k with
  | none => s
  | some w =>
    if w.life != .live || preStopped w then s
    else
      let s := if w.smode then
          s.setWarp k { (match readFrame s w with
            | some f => frameResume s w f
            | none => { w with smode := w.ppm, active := false, inv := none, entry := none }) with smode := false }
        else s
      let s := s.modWarp k stopAgain
      stopWarp s k
def forcedDue (s : State) (core : Nat) : Bool :=
  (s.core core).pre.isSome && (s.core core).left == 0 &&
  ((s.blockWarps core).any (fun w => w.life == .live && !preStopped w) || coreQuiet s core)
/-- FORCED_SAVE: stops the warps; once their operations have completed, saves them and records notice 0x21. -/
def forcedSave (s : State) (core : Nat) : State :=
  if forcedDue s core then
    let s := (s.blockWarps core).foldl (fun s w => forceStop s w.key) s
    if coreQuiet s core then releaseCore s core true else s
  else s
def execForcedSave (s : State) : Out := .next (forcedSave s s.arg.core)

/-! ## Slices (R366) -/

/-- R356: every launch of the queue that was read has placed all its gangs. -/
def queueFree (s : State) (q : Nat) : Bool :=
  s.launches.vals.all fun l => l.queue != q || l.stage == .running || l.stage == .ended
/-- R356, R357: the launch may place gangs: its queue's previous launch, of the record before its own, has ended, or it may overlap. -/
def overlapOk (s : State) (l : Launch) : Bool :=
  l.overlap || s.launches.vals.all fun x => x.queue != l.queue || x.stage == .ended ||
    (l.lid.toNat + 2 ^ 32 - x.lid.toNat) % 2 ^ 32 != 1
/-- A launch of the virtual device that is active: from its first placed gang on (R357, R366). -/
def hasLaunch (s : State) (pid vd : Nat) : Bool :=
  s.launches.vals.any fun l => l.part == pid && l.vdev == vd && (l.stage == .running || (l.stage == .ready && l.image.isSome))
/-- A record that can be read: none is held back by a launch before it (R356). -/
def hasRecord (s : State) (pid vd : Nat) : Bool :=
  s.io.queues.any fun e => e.2.part == pid && e.2.vdev == vd && e.2.enable && !e.2.halted && e.2.qhead != e.2.qtail && queueFree s e.1
/-- R366: the slice is over: at its time, or early without work, though not in the instant it began. -/
def sliceOver (s : State) (pid : Nat) : Bool :=
  let p := s.part pid
  let vd := 4 * pid + p.cur
  !p.ending && decide (1 < p.vdevs.length) &&
  (decide (p.sliceT ≤ s.now) || (decide (p.sliceT < s.now + 1000 * p.slice) && !hasLaunch s pid vd && !hasRecord s pid vd))
/-- SLICE_END. -/
def execSliceEnd (s : State) : Out :=
  let pid := s.arg.part
  .next (if sliceOver s pid then startPreempt (s.modPart pid fun p => { p with ending := true }) pid else s)

/-- The virtual device after the present one, in ascending number (R366). -/
def nextVdev (p : Part) : Nat := ((p.vdevs.find? fun v => decide (p.cur < v)).getD (p.vdevs.headD p.cur))
def partClusters (p : Part) : List Nat := p.dies.flatMap fun d => (List.range 8).map fun i => 8 * d + i
/-- R351: the tile tables of the clusters change with the virtual device. -/
def swapTiles (s : State) (p : Part) (out in' : Nat) : State :=
  (partClusters p).foldl (fun s cl =>
    if s.clusters.has cl then
      s.modCluster cl fun c =>
        let all := c.saved.put out c.tiles
        { c with tiles := all.getD in' [], saved := all.del in' }
    else s) s
def swapGangs (s : State) (pid out in' : Nat) : State :=
  { s with gangs := s.gangs.mapVals fun _ g =>
      let l := s.launch g.lid
      if l.part = pid ∧ l.vdev = in' then { g with away := false }
      else if l.part = pid ∧ l.vdev = out then { g with away := true } else g }
/-- A warp of a restored context issues again. -/
def goOn (w : Warp) : Warp := { w with stopped := false, stopReq := false }
/-- The entry with notice 0x21 waits for its reservation. -/
def noticeWaits (s : State) (core : Nat) : Bool :=
  (s.blockWarps core).any fun w => w.life == .live && w.smode && w.entry.isSome && w.tcode == 0x21
/-- R352, R41: every warp resumes at its stop point, and a baton that is to go, from a warp stopped by the session or UNHELD, goes now. -/
def resumeCore (s : State) (core : Nat) : State :=
  regive (stopsOwed ((s.blockWarps core).foldl (fun s w => s.modWarp w.key goOn) (s.modCore core fun c => { c with notice := false })) core) core
/-- R352: a core's saved context comes back; a notice 0x21 is taken before any U-mode instruction: while the entry waits for its
reservation, the other warps stay stopped. -/
def restoreCore (s : State) (core vd : Nat) : State :=
  let c := { s.core core with phase := s.alignedPhase (core / 8), slot := 0 }
  match c.saved.get? vd with
  | none => s.setCore core { c with away := false }
  | some x =>
    let s := s.setCore core { c with
      away := false, block := x.block, sp := x.sp, spPoison := x.spPoison, dict := x.dict, dictFor := x.dictFor, unheld := x.unheld,
      tframe := x.tframe, budget := x.budget, slope := x.slope, ctrPage := x.ctrPage, left := 0, saved := c.saved.del vd }
    let s := x.warps.foldl (fun s e =>
      { s with warps := s.warps.put e.1 { e.2 with stopReq := false, shadow := false } }) s
    match if x.notice then lowestLive s core else none with
    | none => resumeCore s core
    | some w =>
      let s := takeTrap ((s.modWarp w.key toHandler).focus w.key) { code := 0x21 }
      if noticeWaits s core then s.modCore core fun c => { c with notice := true } else resumeCore s core
/-- The next slice can start: the cores are released, the journal has room, no checkpoint or restore holds the partition (R419). -/
def sliceReady (s : State) (pid : Nat) : Bool := (s.part pid).ending && (partCores s pid).isEmpty && !journalFull s &&
  !(s.io.ck.state == 1 && s.io.ck.parts.contains pid)
/-- SLICE_START; a PREEMPT record tells how the slice before it ended. -/
def sliceStart (s : State) (pid : Nat) : State :=
  if sliceReady s pid then
    let p := s.part pid
    let out := 4 * pid + p.cur
    let n := nextVdev p
    let in' := 4 * pid + n
    let cs := (s.cores.filter fun e => coreIn s pid e.1 && e.2.away).map Prod.fst
    let forced := cs.any fun c => ((s.core c).saved.getD out {}).notice
    let s := journal s 5 pid out ([p.cur, n, forced.toNat] ++ cs.map fun c => ((s.core c).saved.getD out {}).left)
    -- R164: leases on clusters that held no block are revoked as well
    let s := (partClusters p).foldl (fun s cl => revokeLeases s pid cl) s
    let s := swapGangs (swapTiles s p out in') pid out in'
    let s := s.modPart pid fun p => { p with ending := false, cur := n, sliceT := s.now + 1000 * p.slice }
    ((s.cores.filter fun e => coreIn s pid e.1).map Prod.fst).foldl (fun s c => restoreCore s c in') s
  else s
def execSliceStart (s : State) : Out := .next (sliceStart s s.arg.part)

end Sys2Proof.Machine
end

