-- ==== Sys2Proof/Machine/Happen.lean ====
section
/-! DEFINITION. Happenings of a core: reservation grants and spills (spec/03 R61, R62), slips, tenure transfers, rescues and path switches (spec/02 R34 to R38, R50), and the tick of chain time (spec/06 R128). -/
namespace Sys2Proof.Machine

/-! ## Reservations -/

/-- RESERVATION_GRANT (R61). Once the entry with notice 0x21 has its reservation, the other warps go on (R352). -/
def execReservationGrant (s : State) : Out :=
  let s1 := grantWaiters s s.arg.core
  .next (if (s1.core s.arg.core).notice && !noticeWaits s1 s.arg.core then resumeCore s1 s.arg.core else s1)

/-- R62, R343: the waiter the core spills for: in S mode first, then the lowest index. -/
def spillFor (s : State) (core : Nat) : Option Warp :=
  let ws := (s.blockWarps core).filter waitsHeader
  match ws.find? fun w => w.smode with
  | some w => some w
  | none => ws.head?
/-- R62: no warp of the block is able to issue (State.able), and one waits at a header. -/
def spillDue (s : State) (core : Nat) : Bool :=
  s.ableCore == core && s.able.isEmpty && (spillFor s core).any fun w => (headerNeed s w).any fun r => !fits s w r
/-- R62: of the block's warps, none of which was able to issue, those that the core has granted meanwhile are no victims. -/
def notGranted (s0 : State) (v : Warp) : Bool := !((s0.warp? v.key).any waitsHeader && !waitsHeader v)
/-- SPILL. -/
def execSpill (s : State) : Out :=
  let core := s.arg.core
  if !spillDue s core then .next s
  else match spillFor s core with
    | none => .next s
    | some w =>
      let ok := fun (s : State) => (s.warp? w.key).all fun x => x.wait != .header
      .next (spillUntil core w.idx w.smode (notGranted s) ok 32 (grantWaiters s core))

/-! ## Forced transfers (R28, R34 to R38) -/

/-- R343: no forced transfer takes the baton of a warp in S mode. -/
def canForce (w : Warp) : Bool := w.holding && !w.smode && w.life == .live
/-- SLIP (R34, R35): the receiver takes the baton, or the holder keeps it and counting restarts. -/
def execSlip (s : State) : Out :=
  let k := s.arg.warp
  match s.warp? k with
  | none => .next s
  | some w =>
    let s := s.setWarp k { w with forced := none }
    if !canForce w then .next s
    else match receiver s w.core w.idx with
      | none => .next (s.modWarp k fun w => { w with idle := 0, stalled := false })
      | some n =>
        let r := byRescue s w n
        let s := transfer s w.core w.idx n
        let s := s.modWarp k fun w => { w with slips := min (w.slips + 1) (2 ^ 32 - 1) }
        let s := trace (s.countOn w.id.vdev w.cluster 1) w 2 n (min (w.slips + 1) (2 ^ 32 - 1)) 0
        .next (if r then noteRescue s w n else s)
/-- TENURE_TRANSFER (R36). -/
def execTenureTransfer (s : State) : Out :=
  let k := s.arg.warp
  match s.warp? k with
  | none => .next s
  | some w =>
    let s := s.setWarp k { w with forced := none }
    if !canForce w then .next s
    else match receiver s w.core w.idx with
      | none => .next s
      | some n =>
        let r := byRescue s w n
        let s := (transfer s w.core w.idx n).countOn w.id.vdev w.cluster 2
        let s := if r then s.countOn w.id.vdev w.cluster 3 else s
        .next (trace s w 3 n r.toNat 0)
/-- STARVATION_RESCUE (R38): an age passes the limit, and from here the block is in rescue. -/
def execStarvationRescue (s : State) : Out :=
  .next (s.modWarp s.arg.warp fun w =>
    if w.eligible && w.age == Config.rescueAge then { w with age := w.age + 1 } else w)

/-- R50: the warp makes path i its current one; the switch costs a cycle. -/
def pathTo (s : State) (k i : Nat) : State :=
  match s.warp? k with
  | none => s
  | some w =>
    match w.paths.get? i with
    | none => s
    | some q =>
      let s := trace s w 6 i q.lanes.toNat 0
      s.setWarp k { switchPath w i with busy := 1 }
/-- PATH_SWITCH_STALL: the sibling stands in the happening's operand. What the old path has recorded at a name stays (R88). -/
def execPathSwitchStall (s : State) : Out := .next (pathTo s s.arg.warp s.arg.path)
/-- PATH_AGEING_SWITCH. -/
def execPathAgeingSwitch (s : State) : Out := .next (pathTo s s.arg.warp s.arg.path)

/-! ## Chain time (R128) -/

/-- Grains held on a cluster by leases that satisfy a test, each instance once (R151, R389). -/
def grains (c : Cluster) (f : Lease → Bool) : Nat :=
  ((heldInsts c).filter fun x => (contexts c x.1 x.2).any f).foldl (fun n x => n + leave x.1) 0
/-- R389: the lease quota, in grain·ns. -/
def leaseTick (s : State) : State :=
  { s with parts := s.parts.mapVals fun pid p =>
      let g := (s.clusters.map fun e => grains e.2 fun l => l.part == pid).sum
      if g = 0 then p else { p with lease := { p.lease with used := p.lease.used + 2 * g } } }
def tableCost (s : State) (c die : Nat) : Nat := s.io.etable.getD (c * 3 * 49 + (s.volt die - 104)) 0
/-- R368, classes 11 and 12: what a virtual device's leave and resident blocks cost, per µs. -/
def standing (s : State) (v : Nat) : Nat :=
  (s.clusters.map fun e => grains e.2 (fun l => l.vdev == v) * tableCost s 11 (e.1 / 8)).sum +
  (s.cores.map fun e => match e.2.block with
    | some b => if (s.launch b.lid).vdev = v then tableCost s 12 (e.1 / 64) else 0
    | none => 0).sum
/-- The charge of one tick; a remainder below 1/1000 of a unit is carried. -/
def energyTick (s : State) : State :=
  { s with vdevs := s.vdevs.mapVals fun v x =>
      let n := x.fj + 2 * standing s v
      if n = x.fj then x else { x with uj := (x.uj + n / 1000) % 2 ^ 64, fj := n % 1000 } }
/-- R396: grain·ns of each class held by a virtual device's leases. -/
def actTick (s : State) : State :=
  { s with vdevs := s.vdevs.mapVals fun v x =>
      [EngClass.mx, .dm, .cv, .cl].foldl (fun x c =>
        let g := (s.clusters.map fun e => grains e.2 fun l => l.vdev == v && l.cls == c).sum
        if g = 0 then x else { x with act := x.act.put (12 + classNo c) (x.act.getD (12 + classNo c) 0 + 2 * g) }) x }
/-- A tick of chain time, and what it counts. -/
def tick (s : State) : State :=
  let s := energyTick (actTick (leaseTick s))
  { s with tick := s.tick + 1 }

end Sys2Proof.Machine
end

