-- ==== Sys2Proof/Machine/Records.lean ====
section
/-! DEFINITION. Launch records and process-group tables: their fields and checks (spec/17 R311 to R313, spec/19 R356 to R358, spec/20 R387, R388, spec/03 R65). -/
namespace Sys2Proof.Machine

/-- Bits hi:lo of a word, as a number. -/
def bits (w : Word) (hi lo : Nat) : Nat := w.toNat / 2 ^ lo % 2 ^ (hi + 1 - lo)
/-- A partition's accesses that no warp makes: translation of a virtual device from a die, in the given mode (R356, R359). -/
def agent (pid vd die : Nat) (smode : Bool) : Warp := { core := 64 * die, smode := smode, id := { part := pid, vdev := vd } }
def partAgent (s : State) (pid vd : Nat) (smode : Bool) : Warp := agent pid vd ((s.part pid).dies.headD 0) smode

/-! ## Reading a record (R311) -/

/-- Word i of a record. -/
def rw (r : List Word) (i : Nat) : Word := r.getD i 0
/-- The address fields: 56 bits, the rest reserved. -/
def addr56 (w : Word) : Bool := bits w 63 56 == 0
/-- Fields of the record that are in range and whose reserved bits are zero (R311). -/
def recordOk (r : List Word) : Bool :=
  let f := rw r 12
  let g := rw r 13
  let h := rw r 14
  let k := rw r 15
  let w := bits f 6 0
  addr56 (rw r 0) && addr56 (rw r 2) && addr56 (rw r 3) && addr56 (rw r 4) && addr56 (rw r 5) && addr56 (rw r 6) &&
  addr56 (rw r 7) && addr56 (rw r 8) && addr56 (rw r 10) &&
  (bits f 26 26 == 0 || bits (rw r 8) 2 0 == 0) && (bits f 27 27 == 0 || bits (rw r 10) 2 0 == 0) &&
  bits f 63 56 == 1 && bits f 55 28 == 0 && bits f 7 7 == 0 &&
  (w == 16 || w == 32 || w == 64) &&
  decide (1 ≤ bits f 19 16) && decide (bits f 19 16 ≤ 8) && decide (1 ≤ bits f 13 8) && decide (bits f 13 8 ≤ 32) &&
  bits g 63 63 == 0 && decide (bits g 62 56 ≤ 64) && decide (bits g 55 45 ≤ 1024) && decide (bits g 44 32 ≤ 4096) &&
  decide (1 ≤ bits g 31 0) &&
  bits h 63 32 == 0 && decide (bits h 24 16 ≤ 256) && decide (bits h 8 0 ≤ 256) &&
  bits k 63 22 == 0 && decide (bits k 21 13 ≤ 256) && decide (bits k 12 0 ≤ 4096) &&
  (bits k 21 13 != 0 || rw r 4 == 0)
/-- R65. -/
def admission (w nw fv fs pv ps : Nat) : Bool :=
  let c := w / 16
  decide (nw * (fv + 1) * c + (pv - fv) * c ≤ Config.vectorPool) && decide (nw * (fs + 4) + (ps - fs) ≤ Config.scalarPool)

/-! ## Process-group tables (R387, R388) -/

/-- One entry: its ranks' record, the neighbours, and whether its reserved bits are zero. -/
def rankEntry (l : List Word) : RankEnt × List Nat × Bool :=
  let a := rw l 0
  let b := rw l 1
  let c := rw l 2
  (⟨bits a 63 48, bits a 2 0, bits b 31 0, bits b 63 32⟩, [bits c 15 0, bits c 31 16, bits c 47 32, bits c 63 48],
    bits a 47 3 == 0 && rw l 3 == 0 && decide (bits a 2 0 ≤ 5))
/-- Gangs follow one another without gaps. -/
def gangsRun : Nat → List RankEnt → Nat → Bool
  | at', [], n => at' == n
  | at', r :: rs, n => r.gbase == at' && decide (1 ≤ r.gcount) && gangsRun (at' + r.gcount) rs n
def distinctDies : List RankEnt → Bool
  | [] => true
  | r :: rs => !(rs.any fun x => x.pkg == r.pkg && x.die == r.die) && distinctDies rs
def readEntries (s : State) (w : Warp) (a : Nat) : Nat → Except Nat (List (RankEnt × List Nat × Bool))
  | 0 => .ok []
  | n + 1 =>
    match readWords s w .load a 4 with
    | .error c => .error c
    | .ok l => match readEntries s w (a + 32) n with
      | .error c => .error c
      | .ok rest => .ok (rankEntry l :: rest)
/-- The table of a launch: its ranks and GROUPID, or none where it is not valid. -/
def groupTable (s : State) (pid vd a ngangs : Nat) : Option (List RankEnt × Nat) :=
  let p := s.part pid
  let me := s.io.ident.furid
  if a = 0 then some ([⟨me, p.dies.foldl min (p.dies.headD 0), 0, ngangs⟩], 0)
  else if a % 64 ≠ 0 then none
  else
    let w := partAgent s pid vd false
    match readWords s w .load a 8 with
    | .error _ => none
    | .ok h =>
      let n := bits (rw h 0) 13 0
      let headOk := bits (rw h 0) 63 48 == 1 && bits (rw h 0) 47 14 == 0 && decide (1 ≤ n) && decide (n ≤ 8192) &&
        bits (rw h 2) 63 32 == 0 && bits (rw h 2) 31 0 == ngangs && (h.drop 3).all fun x => x == 0
      if !headOk then none
      else match readEntries s w (a + 64) n with
        | .error _ => none
        | .ok es =>
          let rs := es.map Prod.fst
          if es.all (fun e => e.2.2 && e.2.1.all fun x => decide (x < n) || x == 0xFFFF) && gangsRun 0 rs ngangs && distinctDies rs &&
              rs.all (fun r => r.pkg != me || p.dies.contains r.die)
          then some (rs, (rw h 1).toNat) else none

/-! ## The check stage (R356, R358) -/

/-- R365: a cluster the front end may move: not in use, and its tile file holds no window. -/
def movable (s : State) (cl : Nat) : Bool := !inUse s cl && !(s.gangs.any fun e => e.2.cluster == cl && !e.2.gone)
/-- R358, reason 7. -/
def noPool (s : State) (pid cls : Nat) : Bool :=
  !((partClusters (s.part pid)).any fun cl => (s.cluster cl).pool == cls || movable s cl)
/-- The reason a record is refused, if it is (R358). -/
def refusal (s : State) (pid vd : Nat) (r : List Word) : Option Nat :=
  let f := rw r 12
  let h := rw r 14
  let ps := bits h 31 25
  let pv := bits h 24 16
  let fs := bits h 15 9
  let fv := bits h 8 0
  if !recordOk r then some 1
  else if pv < fv ∨ ps < fs then some 2
  else if !admission (bits f 6 0) (bits f 13 8) fv fs pv ps then some 3
  else if rw r 1 ≠ s.io.ident.devhash then some 4
  else if quotaSpent s pid 0 || quotaSpent s pid 2 || (s.part pid).qexh.getLsbD 3 then some 5
  else if (groupTable s pid vd (rw r 6).toNat (bits (rw r 13) 31 0)).isNone then some 6
  else if noPool s pid (bits f 24 23) then some 7
  else none
/-- R376: the pinned pages a record's process-group table lies in. -/
def pinGroup (s : State) (pid vd : Nat) (r : List Word) : State :=
  let a := (rw r 6).toNat
  if a = 0 then s
  else pinRange s (partAgent s pid vd false) a (64 + 32 * ((groupTable s pid vd a (bits (rw r 13) 31 0)).getD ([], 0)).1.length)
/-- The launch a record stands for. -/
def launchOf (s : State) (q : Nat) (lid : Word) (pid vd : Nat) (r : List Word) : Launch :=
  let f := rw r 12
  let g := rw r 13
  let h := rw r 14
  let k := rw r 15
  let t := (groupTable s pid vd (rw r 6).toNat (bits g 31 0)).getD ([], 0)
  { lid := lid, queue := q, part := pid, vdev := vd, devhash := rw r 1,
    id := {
      lid := lid, part := pid, vdev := vd, nwarps := bits f 13 8, W := bits f 6 0, nblocks := bits f 19 16, ngangs := bits g 31 0,
      entry := (rw r 0).toNat / 2 * 2, argbase := (rw r 2).toNat, dictbase := (rw r 3).toNat, dictcount := bits g 55 45,
      classdir := (rw r 4).toNat, classn := bits k 21 13, handler := (rw r 5).toNat / 2 * 2, spillbase := (rw r 7).toNat,
      abort := bits f 20 20 == 1, floorV := bits h 8 0, floorS := bits h 15 9,
      onePkg := t.1.all fun e => e.pkg == s.io.ident.furid },
    tiles := bits g 44 32, spadpg := bits g 62 56, batons := bits f 15 14 + 1, prio := bits f 22 21, opclass := bits f 24 23,
    overlap := bits f 25 25 == 1, waiten := bits f 26 26 == 1, sigen := bits f 27 27 == 1,
    waitaddr := (rw r 8).toNat, waitval := rw r 9, sigaddr := (rw r 10).toNat, sigval := rw r 11, argsize := bits k 12 0,
    peakV := bits h 24 16, peakS := bits h 31 25, stage := if bits f 26 26 = 1 then .waiting else .ready,
    ranks := t.1, groupid := t.2 }
/-- R356: the launch identifier. -/
def launchId (furid q n : Nat) : Word := BitVec.ofNat 64 (furid % 2 ^ 16 * 2 ^ 48 + q * 2 ^ 32 + n % 2 ^ 32)

end Sys2Proof.Machine
end

