-- ==== Sys2Proof/Machine/FrontEnd.lean ====
section
/-! DEFINITION. The front end (spec/19 R354 to R365): doorbells, launches from record to end, gangs, blocks. -/
namespace Sys2Proof.Machine

/-! ## Queues (R354, R355) -/

def queue (s : State) (q : Nat) : Queue := s.io.queues.getD q {}
def setQueue (s : State) (q : Nat) (x : Queue) : State := s.modIo fun io => { io with queues := io.queues.put q x }
/-- QTAIL: a value below QHEAD or beyond the ring is ignored; counts are modulo 2^32 (R355). -/
def doorbell (s : State) (q v : Nat) : State :=
  let x := queue s q
  let v := v % 2 ^ 32
  if (v + 2 ^ 32 - x.qhead) % 2 ^ 32 ≤ 2 ^ x.size then setQueue s q { x with qtail := v } else s
/-- QTAIL_DOORBELL: what its writer wrote before has been applied. -/
def execQtailDoorbell (s : State) : Out := .next (doorbell s s.arg.queue s.arg.val.toNat)
/-- QCTL's fields but HALTED; queues may be enabled once the package is ready (R422), and not after a failed restore (R421); a SIZE above 12 does not fit the ring and is ignored. -/
def qctlFields (s : State) (x : Queue) (v : Word) : Queue :=
  { x with size := if bits v 15 12 ≤ 12 then bits v 15 12 else x.size, prio := bits v 5 4, enable := bits v 0 0 == 1 && s.io.ready && !s.io.enBarred.contains x.part }
/-- QCTL_HALTED_CLEAR: the write sets the other fields as any QCTL write does. -/
def execQctlHaltedClear (s : State) : Out :=
  let x := queue s s.arg.queue
  let v := s.arg.val
  .next (setQueue s s.arg.queue { qctlFields s x v with halted := x.halted && !v.getLsbD 63 })

/-! ## Launch records (R355 to R358) -/

/-- R355, R366, R399: the front end can read the queue's next record. -/
def recordDue (s : State) (q : Nat) : Bool :=
  let x := queue s q
  let p := s.part x.part
  s.io.ready && x.enable && !x.halted && x.qhead != x.qtail && queueFree s q && !p.ending &&
  (decide (p.vdevs.length ≤ 1) || x.vdev == 4 * x.part + p.cur) && !journalFull s
/-- R413: the vector of a queue among its function's: its place among the virtual device's queues. -/
def queueSignal (s : State) (q : Nat) : State :=
  let x := queue s q
  s.signal (1 + x.vdev) ((s.io.queues.filter fun e => decide (e.1 < q) && e.2.vdev == x.vdev).length)
/-- R358: the queue halts and the refusal is counted and recorded. -/
def refuse (s : State) (q : Nat) (lid : Word) (reason : Nat) : State :=
  let x := queue s q
  let s := setQueue s q { x with halted := true, qdone := (x.qdone + 1) % 2 ^ 32, status := 4, reason := reason }
  queueSignal (journal s 1 x.part x.vdev [lid.toNat, q, 4 + 256 * reason, s.now, s.now, 0, 0, 0]) q
/-- R411: a capture records each launch as its record is read. -/
def captureRecord (s : State) (q idx : Nat) (lid : Word) (vd : Nat) (r : List Word) : State :=
  s.modIo fun io => { io with capture := io.capture.map fun c =>
    if c.vdev = vd then { c with recs := c.recs ++ [⟨q, idx, r, lid, none⟩] } else c }
/-- R412: the captured record that a record read from the queue replays: it stands no longer among those to be read. -/
def replayed (s : State) (q vd : Nat) : State × Option Nat :=
  match replaying s, s.io.capture with
  | some r, some c =>
    match if r.vdev = vd then r.sent.find? fun i => (c.recs.getD i ⟨256, 0, [], 0, none⟩).queue == q else none with
    | some i => (s.modIo fun io => { io with replay := some { r with sent := r.sent.erase i } }, some i)
    | none => (s, none)
  | _, _ => (s, none)
/-- R412: what is reported for a launch: whether its checksum equals the captured one. -/
def replayReport (s : State) (i : Nat) (same : Bool) : State :=
  s.modIo fun io => { io with replay := io.replay.map fun r => { r with results := r.results ++ [(i, same)] } }
/-- LAUNCH_RECORD_READ: reads record QHEAD, gives it its identifier, checks it. -/
def readRecord (s : State) (q : Nat) : State :=
  if recordDue s q then
    let x := queue s q
    let r := match readWords s (partAgent s x.part x.vdev true) .load (x.qbase + 128 * (x.qhead % 2 ^ x.size)) 16 with
      | .ok l => l
      | .error _ => []
    let lid := launchId s.io.ident.furid q x.qhead
    let s := pinRange (setQueue s q { x with qhead := (x.qhead + 1) % 2 ^ 32 }) (partAgent s x.part x.vdev true)
      (x.qbase + 128 * (x.qhead % 2 ^ x.size)) 128
    match refusal s x.part x.vdev r with
    | some n =>
      -- a captured launch that is refused has no checksum to compare
      let r := replayed s q x.vdev
      refuse (r.2.elim r.1 fun i => replayReport r.1 i false) q lid n
    | none =>
      let s := pinGroup s x.part x.vdev r
      let s := s.modPart x.part fun p => { p with launches := { p.launches with used := p.launches.used + 1 } }
      let s := { s with launches := s.launches.put lid.toNat (launchOf s q lid x.part x.vdev r) }
      if (replaying s).isSome then
        (let r := replayed s q x.vdev
         r.1.modLaunch lid fun l => { l with rep := r.2 })
      else captureRecord s q x.qhead lid x.vdev r
  else s
def execLaunchRecordRead (s : State) : Out := .next (readRecord s s.arg.queue)

/-- What a read of the dependence word finds (R356). -/
inductive Dep where
  | fault | low | met
  deriving DecidableEq, Repr
def dependence (s : State) (l : Launch) : Dep :=
  match readVirt s (partAgent s l.part l.vdev false) .load l.waitaddr 8 with
  | .error c => if c = 0x22 then .low else .fault
  | .ok v => if l.waitval.toNat ≤ v then .met else .low
/-- WAITADDR_POLL. -/
def poll (s : State) (lid : Word) : State :=
  match s.launches.get? lid.toNat with
  | none => s
  | some l =>
    if l.stage == .waiting then
      match dependence s l with
      | .low => s
      | .met => { pinAt s (partAgent s l.part l.vdev false) l.waitaddr with launches := s.launches.put lid.toNat { l with stage := .ready } }
      | .fault => refuse { s with launches := s.launches.del lid.toNat } l.queue lid 8
    else s
def execWaitaddrPoll (s : State) : Out := .next (poll s s.arg.lid)

/-! ## Placement (R360 to R365) -/

/-- The rank of a die in a launch, with its index. -/
def rankOf (s : State) (l : Launch) (die : Nat) : Option (Nat × RankEnt) :=
  (((List.range l.ranks.length).zip l.ranks).find? fun e => e.2.pkg == s.io.ident.furid && e.2.die == die)
/-- A launch with a gang to place on a die. -/
def hasGang (s : State) (l : Launch) (die : Nat) : Bool :=
  let p := s.part l.part
  l.stage == .ready && overlapOk s l && !p.ending && (decide (p.vdevs.length ≤ 1) || l.vdev == 4 * l.part + p.cur) &&
  (rankOf s l die).any fun r => decide (l.next.getD die 0 < r.2.gcount)
/-- Gangs that hold names of a cluster (R81). -/
def windows (s : State) (cl : Nat) : List Gang :=
  s.gangs.vals.filter fun g => g.cluster == cl && !g.gone && !g.away
/-- R360: the lowest place for n names among those taken. -/
def windowAt (s : State) (cl n : Nat) : Option Nat :=
  let gs := windows s cl
  let free := fun t => decide (t + n ≤ 4096) && gs.all fun g => decide (t + n ≤ g.tnbase) || decide (g.tnbase + g.tncount ≤ t) || g.tncount == 0 || n == 0
  ((0 :: gs.map fun g => g.tnbase + g.tncount).filter free).foldl (fun b t => match b with
    | none => some t
    | some x => some (min x t)) none
def freeCore (s : State) (cl : Nat) : Option Nat :=
  ((List.range 8).map fun i => 8 * cl + i).find? fun c => (s.core c).block.isNone
/-- R361: a gang of the cluster has a block to start. -/
def unstarted (s : State) (cl : Nat) : Bool := (windows s cl).any fun g => g.ended.isNone && decide (g.started < (s.launch g.lid).id.nblocks)
/-- R360: the cluster can take a gang of the launch. -/
def takes (s : State) (l : Launch) (cl : Nat) : Bool :=
  (s.cluster cl).pool == l.opclass && (freeCore s cl).isSome && !unstarted s cl && (windowAt s cl l.tiles).isSome
def dieClusters (die : Nat) : List Nat := (List.range 8).map fun i => 8 * die + i
def home (s : State) (l : Launch) (die : Nat) : Option Nat := (dieClusters die).find? (takes s l)
/-- R365: the cluster of the partition that moves to a launch's pool: from the pool with the most that can, the highest index. It
moves where the waiting die has such a cluster, which then comes to be taken (log 35). -/
def mover (s : State) (l : Launch) (die : Nat) : Option Nat :=
  let idle := ((s.part l.part).dies.flatMap dieClusters).filter fun cl => movable s cl && (s.cluster cl).pool != l.opclass
  let n := fun c => (idle.filter fun cl => (s.cluster cl).pool == c).length
  let best := [0, 1, 2, 3].foldl (fun b c => if n b < n c then c else b) 0
  if idle.any fun cl => cl / 8 == die then
    (idle.filter fun cl => (s.cluster cl).pool == best).foldl (fun b cl => some (b.elim cl (max cl))) none
  else none
def canPlace (s : State) (l : Launch) (die : Nat) : Bool := (home s l die).isSome || (mover s l die).isSome
/-- R362: the launch whose gang a die places next in a pool: the lowest class, then round robin over its queues. -/
def chosen (s : State) (die cls : Nat) : Option Launch :=
  let ls := s.launches.vals.filter fun l => l.opclass == cls && hasGang s l die
  let prio := fun (l : Launch) => (queue s l.queue).prio
  let best := ls.foldl (fun b l => min b (prio l)) 4
  let mine := sortBy (fun a b => decide (a.queue ≤ b.queue)) (ls.filter fun l => prio l == best && canPlace s l die)
  let last := s.io.served.getD (die * 16 + cls * 4 + best) 256
  match mine.find? fun l => decide (last < l.queue) with
  | some l => some l
  | none => mine.head?
def placeable (s : State) (die : Nat) : Option Launch := [0, 1, 2, 3].findSome? (chosen s die)

/-- The first gang of a launch: it is active from here (R357, R172). -/
def startLaunch (s : State) (l : Launch) : Launch :=
  if l.image.isSome then l
  else { l with image := some (s.mem, s.io.lineDom), startT := s.now, uj0 := (s.vdev l.vdev).uj, grains0 := (s.part l.part).lease.used }
/-- Every gang of this package's ranks has been placed. -/
def allPlaced (s : State) (l : Launch) : Bool :=
  l.ranks.all fun r => r.pkg != s.io.ident.furid || decide (r.gcount ≤ l.next.getD r.die 0)
def putLaunch (s : State) (l : Launch) : State := { s with launches := s.launches.put l.lid.toNat l }
def placed (s : State) (l : Launch) : Launch := if allPlaced s l then { l with stage := .running } else l
/-- Places the next gang of a launch on a cluster. -/
def placeOn (s : State) (l : Launch) (die cl tn : Nat) : State :=
  match rankOf s l die with
  | none => s
  | some r =>
    let i := l.next.getD die 0
    let g := r.2.gbase + i
    let l := placed s { startLaunch s l with next := l.next.put die (i + 1) }
    let s := { (putLaunch s l) with
      gangs := s.gangs.put (State.gangKey l.lid g) { lid := l.lid, gang := g, cluster := cl, tnbase := tn, tncount := l.tiles } }
    s.modIo fun io => { io with served := io.served.put (die * 16 + l.opclass * 4 + (queue s l.queue).prio) l.queue }
/-- A cluster changes pool; leases retained on it are discarded (R365). -/
def moveCluster (s : State) (cl cls : Nat) : State := s.modCluster cl fun c => { c with pool := cls, retained := [] }
/-- GANG_PLACEMENT on a die; a launch that has no gang here is placed at once. -/
def place (s : State) (die : Nat) : State :=
  match placeable s die with
  | none =>
    { s with launches := s.launches.mapVals fun _ l => if l.stage == .ready && allPlaced s l && overlapOk s l then
        { startLaunch s l with stage := .running } else l }
  | some l =>
    let s := match home s l die, mover s l die with
      | none, some cl => moveCluster s cl l.opclass
      | _, _ => s
    match home s l die with
    | none => s
    | some cl => match windowAt s cl l.tiles with
      | none => s
      | some tn => placeOn s l die cl tn
def execGangPlacement (s : State) : Out := .next (place s s.arg.unit)

/-! ## Blocks (R22, R23, R25, R33, R186) -/

/-- R364, R371: the cluster runs at its pool's clock. -/
def clockOk (s : State) (cl : Nat) : Bool :=
  let c := s.cluster cl
  decide (requirement c.pool ≤ s.volt (cl / 8)) && c.clk == c.pool && !c.gate
/-- R361: the lowest-indexed gang of a cluster with a block to start. -/
def gangToStart (s : State) (cl : Nat) : Option (Nat × Gang) :=
  s.gangs.find? fun e => e.2.cluster == cl && e.2.ended.isNone && !e.2.away && !e.2.halted &&
    decide (e.2.started < (s.launch e.2.lid).id.nblocks) && !(s.part (s.launch e.2.lid).part).ending
def blockDue (s : State) (cl : Nat) : Bool := clockOk s cl && (freeCore s cl).isSome && (gangToStart s cl).isSome

/-- A warp at block start: R25, R33, R49, R59, R60. -/
def freshWarp (id : Ident) (core i B : Nat) : Warp :=
  { real := true, core := core, idx := i, id := id, resV := id.floorV, resS := id.floorS,
    fsucc := (i + 1) % max 1 id.nwarps, baton := if i < B then some i else none,
    p := { pc := id.entry, lanes := allLanes id.W, exec := allLanes id.W } }

/-- n bytes of the dictionary image, wherever they lie; it is read as data (R186, R375). -/
def readAny (s : State) (w : Warp) (a : Nat) : Nat → Except Nat Nat
  | 0 => .ok 0
  | n + 1 =>
    match readVirt s w .load a 1 with
    | .error c => .error c
    | .ok b => match readAny s w (a + 1) n with
      | .error c => .error c
      | .ok r => .ok (b + 256 * r)
/-- R4, R312: an entry's four parcels, bits 63:48 at the lowest address. -/
def entryWord (v : Nat) : Word :=
  BitVec.ofNat 16 v ++ BitVec.ofNat 16 (v / 2 ^ 16) ++ BitVec.ofNat 16 (v / 2 ^ 32) ++ BitVec.ofNat 16 (v / 2 ^ 48)
/-- The entries of a dictionary, with the address of the lowest that fails (R186, R312). -/
def loadEntries (s : State) (w : Warp) (base : Nat) : Nat → Nat → List Word × Option Nat
  | 0, _ => ([], none)
  | n + 1, i =>
    let a := base + 8 + 8 * i
    match readAny s w a 8 with
    | .error _ => ([], some a)
    | .ok v =>
      if entryBad (entryWord v) then ([], some a)
      else
        let r := loadEntries s w base n (i + 1)
        (entryWord v :: r.1, r.2)
def loadDict (s : State) (w : Warp) : List Word × Option Nat :=
  match readAny s w w.id.dictbase 8 with
  | .error _ => ([], some w.id.dictbase)
  | .ok n => if n = w.id.dictcount then loadEntries s w w.id.dictbase w.id.dictcount 0 else ([], some w.id.dictbase)
/-- R186: the core's dictionary store for a block; a failure gives every warp the dictionary fault. -/
def admitDict (s : State) (core : Nat) (l : Launch) (w : Warp) : State :=
  let c := s.core core
  if l.id.dictcount = 0 then s.setCore core { c with dict := [], dictFor := none }
  else if c.dictFor = some (l.lid, l.id.dictbase) then s
  else
    let r := loadDict s w
    match r.2 with
    | none => pinRange (s.setCore core { c with dict := r.1, dictFor := some (l.lid, l.id.dictbase) }) w l.id.dictbase (8 + 8 * l.id.dictcount)
    | some a =>
      let s := s.setCore core { c with dict := [], dictFor := none }
      (s.blockWarps core).foldl (fun s w => takeTrap (s.focus w.key) { code := 0x13, taddr := a % 2 ^ 56 }) s
/-- R393: a quota trap that was held is taken at a block start. -/
def heldTrap (s : State) (core pid : Nat) : State :=
  if (s.part pid).held then
    match (s.blockWarps core).find? fun w => w.life == .live && !w.smode with
    | some w => takeTrap ((s.modPart pid fun p => { p with held := false }).focus w.key) { code := 0x31 }
    | none => s
  else s
/-- BLOCK_START on a cluster. -/
def startBlock (s : State) (cl : Nat) : State :=
  if blockDue s cl then
    match gangToStart s cl, freeCore s cl with
    | some (gk, g), some core =>
      let l := s.launch g.lid
      let b := g.started
      let rank := ((rankOf s l (cl / 8)).map Prod.fst).getD 0
      let id := { l.id with gang := g.gang, block := b, rank := rank, tnbase := g.tnbase, tncount := g.tncount }
      let B := min l.batons id.nwarps
      let s := { s with gangs := s.gangs.put gk { g with started := b + 1 } }
      let s := s.modCore core fun c => { c with
        block := some { lid := l.lid, gang := g.gang, block := b, nwarps := id.nwarps, batons := B, spadpg := l.spadpg },
        unheld := [], ctrPage := 0, slot := 0, phase := s.alignedPhase cl, waveT := 0, left := 0 }
      let ws := (List.range id.nwarps).map fun i => freshWarp id core i B
      let s := ws.foldl (fun s w => { s with warps := s.warps.put w.key w }) s
      heldTrap (admitDict s core l (freshWarp id core 0 B)) core l.part
    | _, _ => s
  else s
def execBlockStart (s : State) : Out := .next (startBlock s s.arg.cluster)

/-- R22: every warp has ended and every counter is zero. -/
def retireDue (s : State) (core : Nat) : Bool :=
  (s.core core).block.isSome && (s.core core).pre.isNone &&
  (s.blockWarps core).all fun w => w.life != .live && w.ops.isEmpty && w.forced.isNone
/-- R97, R154: the end of a gang: its window returns and its leases are released. -/
def endOfGang (s : State) (gk : Nat) (g : Gang) : State :=
  let s := releaseLeases s g.lid g.gang g.cluster
  let s := s.modCluster g.cluster fun c => { c with
    tiles := c.tiles.filter fun e => !(decide (g.tnbase ≤ e.1) && decide (e.1 < g.tnbase + g.tncount)) }
  let s := { s with gangs := s.gangs.put gk { g with ended := some (g.ended.getD 0), gone := true, freed := [], newWait := [] } }
  s.modLaunch g.lid fun l => { l with ended := l.ended + 1 }
/-- BLOCK_RETIRE. -/
def retireBlock (s : State) (core : Nat) : State :=
  match (s.core core).block with
  | none => s
  | some b =>
    if retireDue s core then
      let ws := s.blockWarps core
      let lct := ws.foldl (fun n w => max n w.lctd) 0
      let s := ws.foldl (fun s w => s.dropWarp w.key) s
      let s := s.modCore core fun c => { c with block := none, unheld := [], notice := false }
      let s := s.modLaunch b.lid fun l => { l with lctd := max l.lctd lct, blocks := l.blocks + 1 }
      let gk := State.gangKey b.lid b.gang
      match s.gangs.get? gk with
      | none => s
      | some g =>
        let g := { g with retired := g.retired + 1 }
        let s := { s with gangs := s.gangs.put gk g }
        let n := (s.launch b.lid).id.nblocks
        if g.retired = g.started ∧ (g.started = n ∨ g.ended.isSome) then endOfGang s gk g else s
    else s
def execBlockRetire (s : State) : Out := .next (retireBlock s s.arg.core)

/-! ## The end of a launch (R359) -/

/-- Gangs of the launch in this package. -/
def ownGangs (s : State) (l : Launch) : Nat := ((l.ranks.filter fun r => r.pkg == s.io.ident.furid).map RankEnt.gcount).sum
def status (l : Launch) : Nat := if l.double then 3 else if l.aborted then 2 else if l.fault then 1 else 0
def endDue (s : State) (l : Launch) : Bool :=
  l.stage == .running && decide (ownGangs s l ≤ l.ended) && decide (l.lctd < s.now) && !journalFull s
/-- R411: a launch's checksum over the pages it wrote, as they stand now. -/
def pageBytes (s : State) (w : Warp) (va : Nat) : List Byte :=
  match walk s (s.part w.id.part) va with
  | .leaf e level => readPhysBytes s (pteDom e) (ptePA e + va % levelSize level) 4096
  | _ => []
def checksum (s : State) (l : Launch) : BitVec 256 :=
  let ps := sortBy (fun a b => decide (a ≤ b)) l.pages
  shake256 (ps.flatMap fun p => leBytes 8 (4096 * p) ++ pageBytes s (partAgent s l.part l.vdev true) (4096 * p))
/-- The capture keeps the checksum; a replay reports whether it is equal (R412). -/
def sumUp (s : State) (l : Launch) : State :=
  match l.rep with
  | some i => replayReport s i (s.io.capture.any fun c => (c.recs[i]?).any fun x => x.sum == some (checksum s l))
  | none =>
    if capturing s l.vdev then
      (let h := checksum s l
       s.modIo fun io => { io with capture := io.capture.map fun c =>
         { c with recs := c.recs.map fun x => if x.lid == l.lid then { x with sum := some h } else x } })
    else s
/-- LAUNCH_END: the status, the LAUNCH record, the signal. -/
def endLaunch (s : State) (lid : Word) : State :=
  match s.launches.get? lid.toNat with
  | none => s
  | some l =>
    if endDue s l then
      let st := status l
      let s := sumUp s l
      let s := journal s 1 l.part l.vdev [lid.toNat, l.queue, st, l.startT, s.now, (s.vdev l.vdev).uj - l.uj0,
        ((s.part l.part).lease.used - l.grains0) / 1000, l.blocks]
      let done := fun (s : State) (t : Option Nat) => s.modLaunch lid fun l => { l with stage := .ended, status := st, doneAt := t, image := none }
      if l.sigen then
        match translate s (partAgent s l.part l.vdev false) .store l.sigaddr with
        -- the store is applied at its home in the order of R130
        | .ok pa pte => extWrite (done s none) (some lid) (pteDom pte) pa 8 l.sigval.toNat
        | .fault _ => done (journal s 8 l.part l.vdev [lid.toNat, l.sigaddr]) (some s.now)
      else done s (some s.now)
    else s
def execLaunchEnd (s : State) : Out := .next (endLaunch s s.arg.lid)
/-- R359: the signal's completion time has passed, or there is none to wait for. -/
def signalSeen (s : State) (l : Launch) : Bool := l.stage == .ended && (!l.sigen || l.doneAt.any fun t => decide (t < s.now))
/-- LAUNCH_DONE_COUNT: QLAST, then QDONE. -/
def countDone (s : State) (lid : Word) : State :=
  match s.launches.get? lid.toNat with
  | none => s
  | some l =>
    if signalSeen s l then
      let x := queue s l.queue
      let s := setQueue s l.queue { x with status := l.status, qdone := (x.qdone + 1) % 2 ^ 32 }
      let s := queueSignal s l.queue
      { s with launches := s.launches.del lid.toNat, gangs := s.gangs.filter fun e => e.2.lid != lid }
    else s
def execLaunchDoneCount (s : State) : Out := .next (countDone s s.arg.lid)

end Sys2Proof.Machine
end

