-- ==== Sys2Proof/Machine/Furlong.lean ====
section
/-! DEFINITION. The 1 ms window (spec/20 R392, R396) and the Furlong ports (spec/21 R416). -/
namespace Sys2Proof.Machine

/-- Four counts, one a class, in 16 bits each (log 18). -/
def packed (a : SMap Nat) (k : Nat) : Nat :=
  (List.range 4).foldl (fun n c => n + min (a.getD (4 * k + c) 0) 0xFFFF * 2 ^ (16 * c)) 0
/-- R396: the LEASE record of a virtual device with lease activity in the window. -/
def leaseRecord (s : State) (v : Nat) : State :=
  let x := s.vdev v
  if x.act.isEmpty then s
  else
    let words := [packed x.act 0, packed x.act 1, packed x.act 2] ++ (List.range 4).map fun c => x.act.getD (12 + c) 0 / 1000
    journal (s.setVDev v { x with act := [] }) 2 (v / 4) v words
/-- FURLONG_WINDOW: sends go on in the next window; a window in which one waited leaves a QUOTA record. -/
def windowDue (s : State) : Bool := decide (s.io.windowEnd ≤ s.now)
def execFurlongWindow (s : State) : Out :=
  if windowDue s then
    let s := s.parts.keys.foldl (fun s pid => if (s.part pid).qexh.getLsbD 4 then quotaRec s pid 4 0 else s) s
    let s := { s with parts := s.parts.mapVals fun _ p =>
      { p with furlong := { p.furlong with used := 0 }, qexh := p.qexh &&& 0xF#5 } }
    let s := s.vdevs.keys.foldl leaseRecord s
    .next (s.modIo fun io => { io with windowEnd := io.windowEnd + 1000000 })
  else .next s

def port (s : State) (n : Nat) : Port := s.io.ports.getD n {}
def setPort (s : State) (n : Nat) (p : Port) : State := s.modIo fun io => { io with ports := io.ports.put n p }
/-- The command of that number of arrival, where it stands queued at an engine of a die. -/
def findCmd (s : State) (die seq : Nat) : Option (Nat × Nat × QCmd) :=
  (s.clusters.filter fun c => c.1 / 8 == die).findSome? fun c => c.2.leases.findSome? fun e =>
    (e.2.queue.find? fun q => q.seq == seq && !q.worked).map fun q => (c.1, e.1, q)
/-- R416: a collective whose packets used the port ends as an aborted one; a DM command sending through it ends unwritten. -/
def cutCommand (s : State) (die seq : Nat) : State :=
  match findCmd s die seq with
  | none => s
  | some (cl, key, q) =>
    match s.lease? cl key with
    | some l =>
      if l.cls = .mx ∨ l.cls = .cv then s
      else endUnwritten (s.modLease cl key fun x => { x with aborted := x.aborted || l.cls == .cl, queue := x.queue.erase q }) cl q
    | none => s
/-- FURLONG_PORT_DOWN: what its unacknowledged packets belonged to stands in the happening's list. -/
def execFurlongPortDown (s : State) : Out :=
  let n := s.arg.unit
  let p := port s n
  if n < 36 ∧ p.state ≠ 0 then
    .next (s.arg.list.foldl (fun s q => cutCommand s (n / 6) q) (setPort s n { p with state := 0, downs := (p.downs + 1) % 2 ^ 64 }))
  else .next s
/-- FLIT_RETRY. -/
def execFlitRetry (s : State) : Out :=
  let n := s.arg.unit
  let p := port s n
  .next (if n < 36 ∧ 2 ≤ p.state then setPort s n { p with retry := (p.retry + 1) % 2 ^ 64 } else s)
/-- FURLONG_PORT_UP: a port that is down starts training; one in training is up, with the peer and the lanes that the happening gives. -/
def execFurlongPortUp (s : State) : Out :=
  let n := s.arg.unit
  let p := port s n
  if 36 ≤ n ∨ 2 ≤ p.state then .next s
  else if p.state = 0 then .next (setPort s n { p with state := 1 })
  else .next (setPort s n { p with state := 2, lanes := (s.arg.len - 1) % 4, peerPkg := s.arg.key % 2 ^ 16, peerPort := s.arg.sel % 2 ^ 8 })
/-- FURLONG_PORT_DEGRADED: the lanes still up stand in the happening. -/
def execFurlongPortDegraded (s : State) : Out :=
  let n := s.arg.unit
  let p := port s n
  if n < 36 ∧ 2 ≤ p.state then .next (setPort s n { p with state := 3, lanes := (s.arg.len - 1) % 4 }) else .next s

end Sys2Proof.Machine
end

