-- ==== Sys2Proof/Machine/Host.lean ====
section
/-! DEFINITION. What the host reaches through BAR 2 and the descriptors (spec/06 R148, spec/21 R413 to R415): publication windows. Function 0 is the physical function, function 1 + v the one of virtual device v. -/
namespace Sys2Proof.Machine

/-! ## The firewall on link 6 (R382) -/

/-- Whether a host access passes link 6 of the die that holds an address. -/
def hostPasses (s : State) (pid pa : Nat) : Bool := (linkAllows (s.part pid) (pa / 2 ^ 37) 6).getLsbD 0
/-- R382, R383: a refused host access is logged; requester class 1 stands for the host (log 19). -/
def hostRefused (s : State) (pid vd pa : Nat) : State := violation s pid vd 6 pa 1

/-! ## BAR 2 (R415) -/

/-- The open window of a function whose BAR 2 range holds an offset: its number and the virtual address there. -/
def windowAtOff (s : State) (vd off : Nat) : Option (Nat × Window × Nat) :=
  s.io.windows.findSome? fun e =>
    if e.1 / 64 != vd || e.2.len == 0 then none
    else match e.2.live with
      | some r => if r.2.2 ≤ off ∧ off < r.2.2 + 4096 * r.2.1 then some (e.1, e.2, r.1 + (off - r.2.2)) else none
      | none => none

/-- One byte of a host read: its value, and the state with what a firewall error or poison leaves; false where the link's
answer is an error or carries the poison marking. -/
def hostByte (s : State) (vd off : Nat) : State × Byte × Bool :=
  match windowAtOff s vd off with
  | none => (s, 0xFF, true)
  | some (_, x, va) =>
    let b := windowByte s x va
    if b.2 = 2 ^ 57 then (s, 0xFF, true)
    else if b.2 = 2 ^ 56 then (s, 0xFF, false)
    else if !hostPasses s x.part b.2 then (hostRefused s x.part vd b.2, 0xFF, false)
    else if s.memPoison.contains (b.2 / 64) then (journal s 0xB x.part vd [b.2, 0, x.part, va, 2], b.1, false)
    else (s, b.1, true)
def hostBytes (s : State) (vd off : Nat) : Nat → State × List Byte × Bool
  | 0 => (s, [], true)
  | n + 1 =>
    let r := hostByte s vd off
    if !r.2.2 then (r.1, List.replicate (n + 1) r.2.1, false)
    else
      let t := hostBytes r.1 vd (off + 1) n
      (t.1, r.2.1 :: t.2.1, t.2.2)
/-- HOST_WINDOW_READ: function `unit`, BAR 2 offset `off`, `len` bytes; the bytes and the completion come back in `arg`. -/
def execHostWindowRead (s : State) : Out :=
  if s.arg.unit = 0 ∨ !s.io.ready then .next { s with arg := { s.arg with bytes := List.replicate s.arg.len 0xFF } }
  else
    let r := hostBytes s (s.arg.unit - 1) s.arg.off s.arg.len
    .next { r.1 with arg := { r.1.arg with bytes := r.2.1, ok := r.2.2 } }

/-- R411: host writes through windows mark pages of the virtual device's launches. -/
def markHost (s : State) (vd va : Nat) : State :=
  (s.launches.vals.filter fun l => l.vdev == vd && (l.stage == .ready || l.stage == .running)).foldl (fun s l => markPage s l.lid va) s
/-- One byte of a host write: outside every window, or at a page without PUBW, it goes nowhere. -/
def hostWriteByte (s : State) (vd off : Nat) (b : Byte) : State :=
  match windowAtOff s vd off with
  | none => s
  | some (_, x, va) =>
    match walk s (s.part x.part) va with
    | .leaf e level =>
      let pa := ptePA e + va % levelSize level
      if !ptePubw e then s
      else if hostPasses s x.part pa then extWrite (markHost s vd va) none (pteDom e) pa 1 b.toNat
      else hostRefused s x.part vd pa
    | _ => s
def hostWrite (s : State) (vd off : Nat) : List Byte → State
  | [] => s
  | b :: bs => hostWrite (hostWriteByte s vd off b) vd (off + 1) bs
/-- HOST_WINDOW_WRITE: each byte is applied at its home in the order of R130, once chain time has passed the line's horizon. -/
def execHostWindowWrite (s : State) : Out :=
  .next (if s.arg.unit = 0 ∨ !s.io.ready then s else hostWrite s (s.arg.unit - 1) s.arg.off s.arg.bytes)

/-! ## Descriptors (R415) -/

/-- Whether a range of pages overlaps another open descriptor of the function. -/
def overlaps (s : State) (vd i va len : Nat) : Bool :=
  s.io.windows.any fun e => e.1 / 64 == vd && e.1 % 64 != i && e.2.len != 0 &&
    decide (va < e.2.va + 4096 * e.2.len) && decide (e.2.va < va + 4096 * len)
/-- A descriptor is stored; one that would overlap is stored closed. A descriptor opened from closed starts at version 0; the 0 in
host memory is the host's to write (log 43). -/
def writeDescriptor (s : State) (vd i va len ctr off : Nat) : State :=
  let k := 64 * vd + i
  let x := s.io.windows.getD k {}
  let va := va % 2 ^ 64 / 4096 * 4096
  let len := len % 2 ^ 32
  let len := if len ≠ 0 ∧ overlaps s vd i va len then 0 else len
  let x := if x.len = 0 then { x with live := none, version := 0, ptime := 0, later := [] } else x
  let x := { x with va := va, len := len, ctr := ctr, off := off / 4096 * 4096, part := vd / 4, live := if len = 0 then none else x.live }
  s.modIo fun io => { io with windows := io.windows.put k x }
/-- PUBLICATION_DESCRIPTOR_WRITE: descriptor `sel` of function `unit`: `addr` VA, `len` pages, `val` CTR, `off` OFF. -/
def execPublicationDescriptorWrite (s : State) : Out :=
  .next (if s.arg.unit = 0 ∨ 64 ≤ s.arg.sel ∨ !s.io.ready then s
    else writeDescriptor s (s.arg.unit - 1) s.arg.sel s.arg.addr s.arg.len s.arg.val.toNat s.arg.off)

end Sys2Proof.Machine
end

