-- ==== Sys2Proof/Machine/Perch.lean ====
section
/-! DEFINITION. The Perch session (spec/21 R401 to R409): stops, breakpoints, memory access, arming of the rings, stall samples. -/
namespace Sys2Proof.Machine

def modPerch (s : State) (f : Perch → Perch) : State := s.modIo fun io => { io with perch := f io.perch }
def bound (s : State) : Bool := s.io.perch.part != 255
/-- A refused write (R402). -/
def perchErr (s : State) : State := modPerch s fun p => { p with err := true }

/-! ## Stops (R402, R408, R409) -/

/-- Where a warp of the session's partition is: on its core, or in the saved context of a virtual device that does not run. -/
inductive Where where
  | here (k : Nat)
  | saved (core vd k : Nat)
  deriving DecidableEq, Repr
/-- The warps of the session's partition, those in saved contexts after those on their cores. -/
def sessionWarps (s : State) : List (Where × Warp) :=
  ((s.allWarps.filter fun w => w.id.part == s.io.perch.part).map fun w => (Where.here w.key, w)) ++
  (s.cores.filter fun e => coreIn s s.io.perch.part e.1).flatMap fun e =>
    e.2.saved.flatMap fun x => x.2.warps.map fun y => (Where.saved e.1 x.1 y.1, y.2)
/-- Changes a warp where it is. -/
def modAt (s : State) (p : Where) (f : Warp → Warp) : State :=
  match p with
  | .here k => s.modWarp k f
  | .saved core vd k => s.modCore core fun c => { c with saved := c.saved.modify vd fun x => { x with warps := x.warps.modify k f } }
/-- The warp of a launch of the session's partition that a STOPCMD or WSEL word names. -/
def named (s : State) (lid v : Word) : Option (Where × Warp) :=
  (sessionWarps s).find? fun e => e.2.id.lid == lid && e.2.id.gang == bits v 63 32 && e.2.id.block == bits v 31 29 && e.2.idx == bits v 28 24
/-- STOPST: 0 done, 1 pending, 2 no such, 3 refused. -/
def result (s : State) (r : Nat) : State :=
  modPerch s fun p => { p with stopSt := r, stopOf := (p.stopLid, s.arg.val), err := p.err || r == 3 }
/-- Whether the launch of STOPLID is another partition's. -/
def foreign (s : State) : Bool :=
  match s.launches.get? s.io.perch.stopLid.toNat with
  | some l => l.part != s.io.perch.part
  | none => false
/-- A STOPCMD at the live warp it names. -/
def stopCmd (s : State) (f : State → Where → Warp → Out) : Out :=
  if !bound s then .next s
  else if foreign s then .next (result s 3)
  else match named s s.io.perch.stopLid s.arg.val with
    | some e => if e.2.life == .live then f s e.1 e.2 else .next (result s 2)
    | none => .next (result s 2)

/-- A warp in a saved context is stopped where it stands; its baton moves when the context is back, which `perchReq` beside `perched`
asks for. In S mode the stop is pending. -/
def stopSaved (w : Warp) : Warp := { w with perched := w.perched || !w.smode, perchReq := w.perchReq || w.smode || !w.perched }
/-- PERCH_WARP_STOP; in S mode the stop is pending until the TRET. -/
def execPerchWarpStop (s : State) : Out :=
  stopCmd s fun s p w =>
    .next (result (match p with
      | .here k => perchStop (s.modWarp k fun w => { w with heldAll := false }) k 0
      | .saved _ _ _ => trace (modAt s p fun w => stopSaved { w with heldAll := false }) w 9 0 0 0) w.smode.toNat)

/-- Paths that are held now: inside an INV at its next iteration boundary, in S mode after the TRET. -/
def heldNow (w : Warp) : Bool := w.p.hold && !w.smode && atBoundary w
def allHeld (w : Warp) : Bool := heldNow w && w.paths.all fun e => e.2.hold
/-- R408: every live path is held: the warp is to be stopped as for a warp stop. -/
def holdsAll (w : Warp) : Bool := w.life == .live && !w.perched && allHeld w
def holdAll (s : State) (k : Nat) : State :=
  match s.warp? k with
  | none => s
  | some w => if holdsAll w then perchStop (s.setWarp k { w with heldAll := true }) k 2 else s
/-- Path e of a warp, changed. -/
def atPath (w : Warp) (e : Nat) (f : Path → Path) : Warp :=
  if e = w.pid then { w with p := f w.p } else { w with paths := w.paths.modify e f }
def holdOf (w : Warp) (e : Nat) : Warp := atPath w e fun q => { q with hold := true }
/-- Holds a path of a warp. -/
def holdPath (s : State) (k e : Nat) : State := holdAll (s.modWarp k fun w => holdOf w e) k
def hasPath (w : Warp) (e : Nat) : Bool := e == w.pid || w.paths.has e
/-- PERCH_PATH_HOLD. -/
def execPerchPathHold (s : State) : Out :=
  stopCmd s fun s p w =>
    let e := bits s.arg.val 22 20
    if !hasPath w e then .next (result s 2)
    else .next (result (match p with
      | .here k => holdPath s k e
      | .saved _ _ _ => modAt s p fun w =>
          let w := holdOf w e
          if holdsAll w then stopSaved { w with heldAll := true } else w) (e == w.pid && w.smode).toNat)

/-- The path goes on from where it stopped: a breakpoint there is past. -/
def letPath (p : Path) : Path := { p with hold := false, past := if p.hold then some p.pc else p.past }
/-- R408: a warp whose stop is released goes on from its boundary. -/
def letGo (w : Warp) : Warp :=
  if w.perched then { w with perched := false, perchReq := false, heldAll := false, p := { w.p with past := some w.p.pc } }
  else { w with perchReq := false }
/-- A warp one of whose paths is released; one that was stopped because all its paths were held goes on. -/
def letPathGo (w : Warp) (e : Nat) : Warp :=
  let w := atPath w e letPath
  if w.heldAll then letGo { w with heldAll := false } else w
/-- A release of a warp, with its trace record; a baton that was UNHELD for it is given out again (R41), that of a saved context when it
is back. -/
def releaseAt (s : State) (p : Where) (w : Warp) (f : Warp → Warp) : State :=
  let s := trace (modAt s p f) w 9 4 0 0
  match p with
  | .here _ => if w.perched && !(f w).perched then regive s w.core else s
  | .saved _ _ _ => s
/-- R408: releases a warp stop. -/
def releaseWarp (s : State) (p : Where) (w : Warp) : State :=
  if w.perched then releaseAt s p w letGo else modAt s p letGo
/-- PERCH_RELEASE_WARP. -/
def execPerchReleaseWarp (s : State) : Out := stopCmd s fun s p w => .next (result (releaseWarp s p w) 0)
/-- PERCH_RELEASE_PATH. -/
def execPerchReleasePath (s : State) : Out :=
  stopCmd s fun s p w =>
    let e := bits s.arg.val 22 20
    if hasPath w e then .next (result (releaseAt s p w fun w => letPathGo w e) 0) else .next (result s 2)
/-- A warp with every stop of the session released. -/
def unstop (w : Warp) : Warp := letGo { w with p := letPath w.p, paths := w.paths.mapVals fun _ q => letPath q }
def anyStop (w : Warp) : Bool := w.perched || w.perchReq || w.p.hold || w.paths.any fun e => e.2.hold
/-- Releases every stop of the warps that satisfy a test. -/
def releaseStops (s : State) (f : Warp → Bool) : State :=
  ((sessionWarps s).filter fun e => f e.2 && anyStop e.2).foldl (fun s e => releaseAt s e.1 e.2 unstop) s
/-- PERCH_RELEASE_ALL: every stop of the launch. -/
def execPerchReleaseAll (s : State) : Out :=
  if !bound s then .next s
  else if foreign s then .next (result s 3)
  else
    let mine := fun (w : Warp) => w.id.lid == s.io.perch.stopLid
    if (sessionWarps s).any fun e => mine e.2 then .next (result (releaseStops s mine) 0) else .next (result s 2)

/-! ## Breakpoints (R408, R409) -/

/-- The armed breakpoint at a warp's program counter, not yet taken there. -/
def breakpoint (s : State) (w : Warp) : Option Word :=
  if s.io.perch.part != w.id.part || w.life != .live || w.isStopped || w.perchReq || w.p.hold || w.p.past == some w.p.pc then none
  else s.io.perch.bps.find? fun b => b.getLsbD 63 && (b.toNat % 2 ^ 56 / 2 * 2 == w.p.pc)
/-- BREAKPOINT_HIT: the path is held, or its warp stopped, before the instruction issues; in S mode the hold or the stop takes effect after
the TRET, as for the commands of R409. -/
def breakHit (s : State) (k : Nat) : State :=
  match s.warp? k with
  | none => s
  | some w =>
    match breakpoint s w with
    | none => s
    | some b => if b.getLsbD 62 then perchStop s k 3 else holdPath s k w.pid
def execBreakpointHit (s : State) : Out := .next (breakHit s s.arg.warp)

/-! ## Memory (R402) -/

/-- What a read of MDATA gives, and what it leaves: a poisoned word reads zero and sets ERR (R345). -/
def mdata (s : State) : State × Word :=
  let p := s.io.perch
  if !bound s ∨ !inFrames s p.part p.maddr 8 then (s, 0)
  else if s.memPoison.contains (p.maddr / 64) then (perchErr (journal s 0xB p.part 0xFF [p.maddr, 0, p.part, 0, 3]), 0)
  else (s, BitVec.ofNat 64 (readPhys s (s.part p.part).keydom p.maddr 8))
/-- MDATA_READ: the word comes back in `arg.val`. -/
def execMdataRead (s : State) : Out :=
  let r := mdata s
  .next { r.1 with arg := { r.1.arg with val := r.2 } }
/-- MDATA_WRITE: applied at the line's home in the order of R130, past its horizon, as a host write is. -/
def execMdataWrite (s : State) : Out :=
  let p := s.io.perch
  if !bound s then .next s
  else if !inFrames s p.part p.maddr 8 then .next (perchErr s)
  else .next (extWrite s none (s.part p.part).keydom p.maddr 8 s.arg.val.toNat)

/-! ## Arming (R402, R403) -/

/-- R403: arming rewrites the ring's header. -/
def clearRing (s : State) (base rsize : Nat) : State :=
  writePhysBytes s (s.part s.io.perch.part).keydom base (List.replicate 24 0 ++ leBytes 8 rsize ++ List.replicate 32 0)
/-- The cores with those that SMPCORE words select in the session's partition: one that holds nothing writes samples too (R404). -/
def selected (s : State) (words : List Word) : SMap Core :=
  ((List.range 384).filter fun c => coreIn s s.io.perch.part c && (words.getD (c / 64) 0).getLsbD (c % 64)).foldl
    (fun (m : SMap Core) c => if m.has c then m else m.put c {}) s.cores
/-- SAMPLE_ARM: the SMPCTL word written stands in `arg.val`. A LOGP outside 8 to 20 is refused as other arming writes are (log 44). -/
def execSampleArm (s : State) : Out :=
  let v := s.arg.val
  let p := s.io.perch
  if !bound s then .next s
  else if bits v 20 16 < 8 ∨ 20 < bits v 20 16 ∨ (v.getLsbD 0 && !inFrames s p.part p.srBase (2 ^ p.srSize)) then .next (perchErr s)
  else
    let s1 := if v.getLsbD 0 && !p.smpCtl.getLsbD 0 then
        { (clearRing s p.srBase 32) with cores := (selected s p.smpCores).mapVals fun _ c => { c with sample := 0 } } else s
    .next (modPerch s1 fun p => { p with smpCtl := v &&& 0x1F0001#64 })
/-- TRACE_ARM: the TRCTL word written stands in `arg.val`. -/
def execTraceArm (s : State) : Out :=
  let v := s.arg.val
  let p := s.io.perch
  if !bound s then .next s
  else if v.getLsbD 0 && !inFrames s p.part p.trBase (2 ^ p.trSize) then .next (perchErr s)
  else
    let s1 := if v.getLsbD 0 && !p.trCtl.getLsbD 0 then clearRing s p.trBase 64 else s
    .next (modPerch s1 fun p => { p with trCtl := v &&& 0x103FF#64, trHeld := if v.getLsbD 0 then p.trHeld else [] })

/-! ## Stall samples (R404, R405) -/

/-- The instruction a warp waits at, if it is at one. -/
def waitingInstr (s : State) (w : Warp) : Option Instr :=
  match fetched (s.focus w.key) with
  | .body i _ => match i with
    | .dictionaryCode k n => (expand (s.focus w.key) k n).toOption
    | i => some i
  | _ => none
/-- R405: the first register by field position that is not there yet: its class, index, and the PC of its producer. That of a PASS's
status is the PASS (R30); a port's elements come by the reads of the waiting instruction itself. -/
def blameReg (w : Warp) (i : Instr) : Option (Nat × Nat × Nat) :=
  (regFields i).findSome? fun r =>
    if r.1 = 0 then
      (if (w.portOf (BitVec.ofNat 8 r.2)).isSome then (if w.wait == .stream then some (0, r.2, w.p.pc) else none)
       else ((w.vregs.get? r.2).bind fun x => x.pend).map fun pc => (0, r.2, pc))
    else if w.passHold.any fun h => h.1.toNat == r.2 then some (1, r.2, w.passPc)
    else ((w.sregs.get? r.2).bind fun x => x.pend).map fun pc => (1, r.2, pc)
def classNum (c : Cls) : Nat := match c with
  | .ld => 0 | .st => 1 | .tl => 2 | .dm => 3 | .mx => 4 | .cl => 5
/-- Classes a waiting instruction waits on with their threshold: WAITC's, or the counter that stands at 63. -/
def waitClasses (w : Warp) (i : Option Instr) : List Cls × Nat :=
  match i with
  | some (.waitc _ m n) => ([Cls.ld, .st, .tl, .dm, .mx, .cl].filter fun c => m.getLsbD (classNum c), n.toNat)
  | _ => ([Cls.ld, .st, .tl, .dm, .mx, .cl].filter fun c => decide (Config.counterMax ≤ w.cnt c), Config.counterMax - 1)
/-- REASON, BLAME and DETAIL of a stalled holder. -/
def stallReason (s : State) (w : Warp) : Nat × Nat × Nat :=
  let i := waitingInstr s w
  match w.park, w.wait with
  | some p, _ =>
    let t := (s.cluster w.cluster).tiles.getD p.name {}
    (3, 0, p.name + t.defb * 2 ^ 12 + t.defw * 2 ^ 15)
  | none, .reg | none, .stream =>
    match i.bind (blameReg w) with
    | some r => (1, r.2.2, r.1 * 256 + r.2.1)
    | none => (1, 0, 0)
  | none, .counter | none, .full =>
    let cs := waitClasses w i
    let above := cs.1.find? fun c => decide (cs.2 < w.cnt c)
    (2, (above.bind fun c => w.ops.find? fun o => o.cls == c && !o.done).elim 0 fun o => o.pc,
      cs.1.foldl (fun m c => m + 2 ^ classNum c) 0)
  | none, .header => (4, w.p.pc, ((headerNeed s w).elim 0 Prod.fst) - w.resV)
  | none, .fence => (5, w.p.pc, 0)
  | none, .barrier => (5, w.p.pc, match i with
      | some (.barwait _ _ b o) => saddr w b o % 2 ^ 32
      | _ => 0)
  | none, .sync => (5, w.p.pc, w.arrive.elim 0 fun a => a.gen)
  | none, .queue | none, .engine => (6, w.p.pc, match i with
      | some (.lease _ _ k _) => classNo k
      | some (.leaset _ _ k _) => classNo k
      | some (.dmcopy _ _ _) | some (.dmgather _ _ _ _ _) | some (.dmscatter _ _ _ _ _) | some (.dmfill _ _ _ _) => 1
      | some (.cvshape _ _) | some (.mxconv _ _ _ _ _) => 2
      | some (.clreduce _ _ _ _ _ _) | some (.clgather _ _ _ _) | some (.clbcast _ _ _ _) => 3
      | _ => 0)
  | _, _ => (0, 0, 0)
/-- The record of one slot, as the turns of the cycle leave it. A baton that a PASS form or EXIT moved in this cycle has its IN-TRANSFER
cycle in the next; its slot has issued (log 44). -/
def sampleRec (s : State) (core k : Nat) : List Byte :=
  match (s.blockWarps core).find? fun w => w.baton == some k with
  | none => leBytes 8 s.now ++ List.replicate 16 0 ++ [0xFF, 0, 9, 0, 0, 0, 0, 0]
  | some w =>
    let r := if w.isStopped || w.stopped then (10, 0, 0)
      else if w.slotUse = .issued then (0, 0, 0)
      else if w.slotUse = .moved then (if w.busy = 1 then (8, 0, 0) else (0, 0, 0))
      else if w.busy != 0 then (if w.wait = .sync then (5, w.lastPc, 0) else (7, w.lastPc, 0))
      else if w.stalled then stallReason s w else (0, 0, 0)
    leBytes 8 s.now ++ leBytes 8 w.p.pc ++ leBytes 8 r.2.1 ++
      (leBytes 1 w.idx ++ leBytes 1 w.pid ++ leBytes 1 r.1 ++ leBytes 1 w.id.block ++ leBytes 4 r.2.2)
/-- The session samples a core. -/
def sampled (s : State) (core : Nat) : Bool :=
  let p := s.io.perch
  bound s && p.smpCtl.getLsbD 0 && coreIn s p.part core && (p.smpCores.getD (core / 64) 0).getLsbD (core % 64)
/-- STALL_SAMPLE. -/
def execStallSample (s : State) : Out :=
  let c := s.arg.core
  if sampled s c then
    .next ([0, 1, 2, 3].foldl (fun s k => ringPut s s.io.perch.srBase s.io.perch.srSize 32 (sampleRec s c k)) s)
  else .next s

/-! ## The end of a session (R418) -/

/-- Disarms everything and releases every stop of the session. -/
def endSession (s : State) : State := modPerch (releaseStops s fun _ => true) fun _ => {}

end Sys2Proof.Machine
end

