-- ==== Sys2Proof/Machine/Bringup.lean ====
section
/-! DEFINITION. Bring-up, warm reset, partitions and key domains (spec/21 R422, R423; spec/20 R380, R384, R386). -/
namespace Sys2Proof.Machine

def asciiMeasure : List Byte := [0x41, 0x39, 0x36, 0x30, 0x20, 0x6D, 0x65, 0x61, 0x73, 0x75, 0x72, 0x65]
/-- R322: the device hash of the architecture level, stepping and the word layout. -/
def deviceHash (level stepping : Nat) : Word :=
  (shake256 (leBytes 1 level ++ leBytes 1 stepping ++ [0x00, 0x04, 0, 0, 0, 0])).extractLsb' 0 64
/-- R423: what the measurement chain takes after the boot ROM, in the rule's order: the firmware image, then what the signed
configuration gives as energy table, partition configuration, frame map and ECAP values. How the last four are laid out in bytes is free. -/
def components (fw : FwCfg) : List (List Byte) :=
  let list := fun (l : List Nat) => l.length :: l
  [fw.image,
    Config.layout 1 (fw.energy.flatMap fun e => [e.1, e.2]),
    Config.layout 2 (list (fw.parts.flatMap fun c =>
        [c.id, c.tframe, c.slope, c.p.keydom, c.p.slice, c.p.lease.limit, c.p.launches.limit, c.p.frames.limit, c.p.furlong.limit] ++
          list c.p.dies ++ list c.p.domains ++ list c.p.vdevs) ++
      list (fw.queues.flatMap fun q => [q.1, q.2.1, q.2.2]) ++ list (fw.pools.flatMap fun x => [x.1, x.2])),
    Config.layout 3 (fw.frames.flatMap fun f => [f.1, f.2.1, f.2.2]),
    Config.layout 4 (fw.parts.flatMap fun c => [c.id, c.p.ecap])]
/-- R423: M0 from the boot ROM's digest, then one step for each component, in the order the rule gives. -/
def measure (fw : FwCfg) : BitVec 512 :=
  (components fw).foldl (fun m c => shake512 (leBytes 64 m.toNat ++ leBytes 64 (shake512 c).toNat)) (shake512 (asciiMeasure ++ fw.rom))

/-! ## The signed configuration (R380, R389, R422) -/

/-- R386: an act on a key domain, 0 bound, 1 re-keyed, 2 erased: its KEY record, and when it was (R421). -/
def keyRec (s : State) (pid d act : Nat) : State :=
  journal (s.modIo fun io => { io with keyTime := io.keyTime.put d s.now }) 6 pid 0xFF [d, act]
/-- Values firmware sets on every core of a partition. -/
def setCores (s : State) (c : PartCfg) : State :=
  c.p.dies.foldl (fun s d => (List.range 64).foldl (fun s i =>
    s.modCore (64 * d + i) fun k => { k with tframe := c.tframe, slope := c.slope }) s) s
/-- R386: a KEY record for each domain that a configuration binds to a partition which did not own it. -/
def bindAll (s : State) (fw : FwCfg) : State :=
  fw.parts.foldl (fun s c =>
    (c.p.domains.filter fun d => !(s.part c.id).domains.contains d).foldl (fun s d => keyRec s c.id d 0) s) s
/-- Partitions, queues, pools and the frame map as a configuration gives them. -/
def install (s : State) (fw : FwCfg) : State :=
  let dies := fw.parts.flatMap fun c => c.p.dies
  let s := bindAll s fw
  let s := { s with parts := s.parts.filter fun e => !(e.2.dies.any dies.contains) }
  let s := fw.parts.foldl (fun s c => setCores (s.setPart c.id c.p) c) s
  let s := fw.parts.foldl (fun s c => c.p.vdevs.foldl (fun s v => s.setVDev (4 * c.id + v) (s.vdev (4 * c.id + v))) s) s
  let s := fw.pools.foldl (fun s e => s.modCluster e.1 fun c => { c with pool := e.2, clk := e.2 }) s
  s.modIo fun io => { io with
    etable := if fw.energy.isEmpty then io.etable else fw.energy.foldl (fun (m : SMap Nat) e => m.put e.1 e.2) [],
    queues := fw.queues.foldl (fun (m : SMap Queue) e => m.put e.1 { m.getD e.1 {} with part := e.2.1, vdev := e.2.2 }) io.queues,
    frames := fw.frames.foldl (fun (m : SMap (Nat × Nat)) e => m.put e.1 e.2) (io.frames.filter fun e => !dies.contains (e.1 / 2 ^ 16)),
    fw := fw }

/-! ## The start-up sequence (R422) -/

/-- Ports after training: those in the mask stay down; the peers of the others are what the fabric reports (log 20). -/
def trained (s : State) (failed : Nat) : SMap Port :=
  (List.range 36).map fun n =>
    if failed / 2 ^ n % 2 = 1 then (n, {})
    else
      let v := (Config.freeValue (s.freeCtr + n)).toNat
      (n, { state := 2, lanes := 3, peerPkg := v % 2 ^ 16, peerPort := v / 2 ^ 16 % 2 ^ 8 })
/-- What a reset leaves as the boot ROM starts, step 1: nothing resident, chain time 0; memory and what lies outside stay as given. -/
def cleared (s : State) (mem : Memory) (poison : List Nat) (ver : SMap Nat) (dom : SMap (Nat × Nat)) (fw : FwCfg) : State :=
  { agenda := s.agenda, freeCtr := s.freeCtr, arg := s.arg, mem := mem, memPoison := poison,
    io := { hostMem := s.io.hostMem, nodes := s.io.nodes, fw := fw, keyVer := ver, lineDom := dom,
            signals := s.io.signals, ident := { bootst := 1 }, boot := some ⟨s.arg.sel, s.arg.val2⟩ } }
/-- BOOTST shows the step that runs. -/
def toStep (s : State) (n : Nat) : State := s.modIo fun io => { io with ident := { io.ident with bootst := n } }
/-- The running step ends and the next begins. A step that fails ends the sequence in RECOVERY; by the table steps 2, 4 and 5 can. -/
def bootNext (s : State) : State :=
  match s.io.boot with
  | none => s
  | some b =>
    let n := s.io.ident.bootst
    let fw := s.io.fw
    if b.fail = n ∧ (n = 2 ∨ n = 4 ∨ n = 5) then
      (toStep s (0x80 + n)).modIo fun io => { io with recovery := true, boot := none }
    else match n with
    | 1 =>
      let h := deviceHash 1 fw.stepping
      s.modIo fun io => { io with
        ident := { devhash := h, level := 1, stepping := fw.stepping, serial := fw.serial, bootst := 2 },
        journal := { link := shake512 (asciiAssize ++ leBytes 8 h.toNat) } }
    | 2 => toStep s 3
    | 3 => (toStep s 4).modIo fun io => { io with meas := measure fw, ports := (List.range 36).map fun i => (i, { state := 1 }) }
    | 4 =>
      { (s.modIo fun io => { io with ident := { io.ident with furid := fw.furid, bootst := 5 }, ports := trained s b.ports }) with
        freeCtr := s.freeCtr + 36 }
    | _ => (toStep (install s fw) 6).modIo fun io => { io with ready := true, boot := none }
/-- POWER_ON_RESET: the signed configuration stands in the happening, with the step that fails, if one does, and the ports that do. -/
def execPowerOnReset (s : State) : Out := .next (cleared s [] [] [] [] s.arg.fw)
/-- Every key domain is erased: each gets a version of its own (R386). -/
def erasedAll (s : State) : SMap Nat := (List.range 64).map fun d => (d, domVer s d + 1)
def warmReset (s : State) : State := cleared s s.mem s.memPoison (erasedAll s) s.io.lineDom s.io.fw
/-- WARMRESET, the mailbox's command. -/
def execWarmreset (s : State) : Out :=
  .next (if s.io.mbox.busy then warmReset s else s)
/-- CHAIN_TIME_TICK (R128). While the start-up sequence runs, one of its steps ends with each tick (log 36). -/
def execChainTimeTick (s : State) : Out := .next (bootNext (tick s))

/-! ## Key domains and partitions (R380, R386) -/

/-- Every core of a partition is released. -/
def released (s : State) (pid : Nat) : Bool := (partCores s pid).isEmpty
/-- KEY_DOMAIN_REKEY: act 0 binds, 1 re-keys, 2 erases domain `sel`. -/
def execKeyDomainRekey (s : State) : Out :=
  let pid := s.arg.part
  let d := s.arg.sel
  let act := s.arg.val2
  let mine := (s.part pid).domains.contains d
  let other := s.parts.any fun e => e.1 != pid && e.2.domains.contains d
  if !released s pid ∨ d = 0 ∨ 64 ≤ d ∨ other ∨ 2 < act ∨ (act ≠ 0 && !mine) then .next s
  else
    let s := s.modPart pid fun p => { p with
      domains := if act = 0 then (if mine then p.domains else p.domains ++ [d]) else if act = 2 then p.domains.erase d else p.domains }
    let s := s.modIo fun io => { io with keyVer := if act = 0 then io.keyVer else io.keyVer.put d (io.keyVer.getD d 0 + 1) }
    .next (keyRec s pid d act)
/-- PARTITION_RECONFIGURE: only while every core of the dies concerned is released. -/
def execPartitionReconfigure (s : State) : Out :=
  let dies := s.arg.fw.parts.flatMap fun c => c.p.dies
  -- the partitions whose dies the configuration takes, or whose number it gives to other dies
  let old := s.parts.filter fun e => e.2.dies.any dies.contains || s.arg.fw.parts.any fun c => c.id == e.1
  if s.io.ready && (old.all fun e => released s e.1) && (s.cores.all fun e => !dies.contains (e.1 / 64) || e.2.block.isNone) then
    .next (install s s.arg.fw)
  else .next s

end Sys2Proof.Machine
end

