-- ==== Sys2Proof/Machine/Checkpoint.lean ====
section
/-! DEFINITION. Checkpoint and restore (spec/21 R419 to R421). What lies at the targets are the units' bytes; what a restore writes back is kept with the checkpoint's identifier (log 17). -/
namespace Sys2Proof.Machine

/-! ## Targets (R420) -/

def readTarget (m : Memory) (a : Nat) : CkTarget :=
  ⟨m.readN a 8, m.readN (a + 8) 8, m.readN (a + 16) 2, m.readN (a + 18) 1 == 1⟩
def readTargets (m : Memory) (a n : Nat) : List CkTarget := (List.range n).map fun i => readTarget m (a + 32 * i)
def targetOk (t : CkTarget) : Bool := t.furlong || t.addr % 4096 == 0
/-- A die has a Furlong port that is up. -/
def portUp (s : State) (die : Nat) : Bool := s.io.ports.any fun x => x.1 / 6 == die && decide (2 ≤ x.2.state)
/-- R419, R381: a Furlong target is reached from a die through a port of its own, or of another die concerned under FUR. -/
def reachable (s : State) (parts : List Nat) (t : CkTarget) : Bool :=
  let dies := parts.flatMap fun p => (s.part p).dies
  !t.furlong || parts.all fun p => (s.part p).dies.all fun d =>
    portUp s d || dies.any fun e => portUp s e && (linkAllows (s.part p) d e).getLsbD 3
def targetBytes (s : State) (t : CkTarget) (off n : Nat) : List Byte :=
  if t.furlong then (s.io.nodes.getD t.node []).bytes (t.addr + off) n else s.io.hostMem.bytes (t.addr + off) n
def targetPut (s : State) (t : CkTarget) (off : Nat) (bs : List Byte) : State :=
  if t.furlong then s.modIo fun io => { io with nodes := io.nodes.put t.node ((io.nodes.getD t.node []).put (t.addr + off) bs) }
  else s.modIo fun io => { io with hostMem := io.hostMem.put (t.addr + off) bs }

/-! ## Units (R419, R420) -/

/-- A unit: type, physical address, partition, virtual device (0xFF for a frame), payload. -/
structure CkUnit where
  type : Nat
  pa : Nat
  part : Nat
  vdev : Nat
  payload : List Byte

/-- A line as stored: ciphertext under the keys it was written with (R385). -/
def storedLine (s : State) (line : Nat) : List Byte :=
  leBytes 64 (cipherOf line (s.io.lineDom.getD line (0, 0)) (BitVec.ofNat 512 (s.mem.readN (64 * line) 64))).toNat
def framePayload (s : State) (frame : Nat) : List Byte := (List.range 32768).flatMap fun i => storedLine s (frame * 32768 + i)
/-- The shape of shadow storage and of saved tile tables is not stated: bytes of a stated length that the run leaves free. -/
def freeBytes (n ctr : Nat) : List Byte := (List.range n).map fun i => (Config.freeValue (ctr + i)).extractLsb' 0 8
def bankPayload (s : State) (v : Nat) : List Byte := (List.range 4096).flatMap fun i => leBytes 8 (bankWord s v i).toNat
def frameUnits (s : State) (parts : List Nat) : List CkUnit :=
  (s.io.frames.filter fun e => parts.contains e.2.1).map fun e => ⟨0, e.1 * 2 ^ 21, e.2.1, 0xFF, framePayload s e.1⟩
def contextUnits (s : State) (parts : List Nat) : List CkUnit :=
  parts.flatMap fun p => (s.part p).vdevs.flatMap fun v =>
    [⟨1, 0, p, v, freeBytes 64 s.freeCtr⟩, ⟨2, 0, p, v, freeBytes 64 (s.freeCtr + 64)⟩, ⟨3, 0, p, v, bankPayload s (4 * p + v)⟩]
/-- Bytes of the three context units of a virtual device, headers included. -/
def contextLen : Nat := 64 + 64 + (64 + 64) + (64 + 8 * 4096)
def ckUnits (s : State) (parts : List Nat) : List CkUnit := frameUnits s parts ++ contextUnits s parts
def unitDigest (u : CkUnit) : BitVec 256 := shake256 u.payload
def unitBytes (id : Word) (u : CkUnit) : List Byte :=
  leBytes 8 id.toNat ++ leBytes 8 u.pa ++ leBytes 4 u.payload.length ++ leBytes 1 u.type ++ leBytes 1 u.part ++ leBytes 1 u.vdev ++
    leBytes 1 0 ++ leBytes 32 (unitDigest u).toNat ++ List.replicate 8 0 ++ u.payload

/-- Units go to target u mod n, one after another in each target: target, offset, bytes. -/
def layout (n : Nat) (id : Word) : Nat → List Nat → List CkUnit → List (Nat × Nat × List Byte × BitVec 256)
  | _, _, [] => []
  | u, fill, x :: xs =>
    let t := u % n
    let bs := unitBytes id x
    (t, fill.getD t 0, bs, unitDigest x) :: layout n id (u + 1) (setAt fill t (fill.getD t 0 + bs.length)) xs
/-- Where target t stands after the units. -/
def filled (l : List (Nat × Nat × List Byte × BitVec 256)) (t : Nat) : Nat :=
  l.foldl (fun m e => if e.1 = t then max m (e.2.1 + e.2.2.1.length) else m) 0

def asciiCheckpoint : List Byte :=
  [0x41, 0x39, 0x36, 0x30, 0x20, 0x63, 0x68, 0x65, 0x63, 0x6B, 0x70, 0x6F, 0x69, 0x6E, 0x74]
/-- The digest of the partition configuration in force, which the measurement chain takes as its third component (R423). -/
def configDigest (s : State) : List Byte := leBytes 64 (shake512 ((components s.io.fw).getD 2 [])).toNat
/-- The manifest: its head, an entry a unit, the signature; and the SHAKE256 digest of what is signed. -/
def manifest (s : State) (l : List (Nat × Nat × List Byte × BitVec 256)) : List Byte × BitVec 512 :=
  let c := s.io.ck
  let mask := c.parts.foldl (fun m p => m + 2 ^ p) 0
  let head := leBytes 8 c.id.toNat ++ leBytes 8 s.io.ident.devhash.toNat ++ leBytes 8 s.io.ident.serial ++ leBytes 8 s.io.ident.furid ++
    leBytes 8 c.start ++ leBytes 8 s.now ++ leBytes 64 s.io.meas.toNat ++ configDigest s ++
    leBytes 8 mask ++ leBytes 8 l.length
  let body := (head ++ List.replicate 64 0).take 256 ++ l.flatMap fun e => leBytes 8 e.1 ++ leBytes 8 e.2.1 ++ leBytes 32 e.2.2.2.toNat
  let d := shake512 body
  (body ++ leBytes 114 (Config.ed448 asciiCheckpoint (leBytes 64 d.toNat)).toNat, d)

/-! ## Starting (R419, R421) -/

/-- The slices of the partitions end, and no slice starts until the act is over. -/
def stopParts (s : State) (parts : List Nat) : State :=
  parts.foldl (fun s p => if (s.part p).ending then s else startPreempt (s.modPart p fun x => { x with ending := true }) p) s
/-- MBARG0: one partition, or all. -/
def ckParts (s : State) (a : Nat) : Option (List Nat) :=
  if a = 0xFF then some s.parts.keys else if s.parts.has a then some [a] else none
/-- A CHECKPOINT record (R396). -/
def ckRecord (s : State) : State :=
  let c := s.io.ck
  let d := c.digest.toNat
  journal s 0xA 0xFF 0xFF [c.id.toNat, c.restoring.toNat, c.state, c.parts.foldl (fun m p => m + 2 ^ p) 0, c.done,
    d % 2 ^ 64, d / 2 ^ 64 % 2 ^ 64, d / 2 ^ 128 % 2 ^ 64, d / 2 ^ 192 % 2 ^ 64]
def setCk (s : State) (f : Ck → Ck) : State := s.modIo fun io => { io with ck := f io.ck }
/-- Starts a checkpoint or a restore with its arguments; none where one is out of range. -/
def ckStart (s : State) (restoring : Bool) (args : List Nat) : Option State :=
  let n := args.getD 2 0
  match ckParts s (args.getD 0 0) with
  | none => none
  | some parts =>
    let ts := readTargets s.io.hostMem (args.getD 1 0) n
    if n = 0 ∨ 64 < n ∨ !ts.all targetOk then none
    else
      let c : Ck := {
        state := 1, restoring := restoring, id := BitVec.ofNat 64 (args.getD 3 0), parts := parts, targets := ts, start := s.now,
        total := ((s.io.frames.filter fun e => parts.contains e.2.1).length) * (2 ^ 21 + 64) +
          (parts.map fun p => (s.part p).vdevs.length).sum * contextLen }
      some (setCk s fun _ => c)

/-! ## Ending -/

/-- Every core of the partitions concerned is released. -/
def ckQuiet (s : State) : Bool := s.io.ck.state == 1 && s.io.ck.parts.all (released s)
/-- The partitions go on with their next slices (R366), which SLICE_START begins. -/
def ckOver (s : State) (state : Nat) : State := ckRecord (setCk s fun c => { c with state := state })
/-- Contexts, tile tables, gangs and launches of the partitions, as they stand. -/
def image (s : State) (m : List Byte) (l : List (Nat × Nat × List Byte × BitVec 256)) : CkImage :=
  let ps := s.io.ck.parts
  let mine := fun (frame : Nat) => (s.io.frames.get? frame).any fun f => ps.contains f.1
  let dies := ps.flatMap fun p => (s.part p).dies
  { start := s.io.ck.start, parts := ps, manifest := m, units := l.map fun e => (e.1, e.2.1, e.2.2.1.length, e.2.2.2),
    frames := s.io.frames.filter fun e => ps.contains e.2.1,
    mem := s.mem.filter fun e => mine (e.1 / 2 ^ 21), doms := s.io.lineDom.filter fun e => mine (e.1 / 2 ^ 15),
    owned := ps.map fun p => (p, (s.part p).domains),
    leases := (s.clusters.filter fun e => dies.contains (e.1 / 8)).map fun e => (e.1, e.2.gen, e.2.leases.filter fun l => ps.contains l.2.part),
    cores := (s.cores.filter fun e => dies.contains (e.1 / 64)).map fun e => (e.1, e.2.saved),
    tiles := (s.clusters.filter fun e => dies.contains (e.1 / 8)).map fun e =>
      let p := (s.parts.find? fun x => x.2.dies.contains (e.1 / 8)).elim 0 fun x => 4 * x.1 + x.2.cur
      (e.1, e.2.saved.put p e.2.tiles),
    gangs := s.gangs.filter fun e => ps.contains (s.launch e.2.lid).part,
    launches := s.launches.filter fun e => ps.contains e.2.part }
/-- Target k answers with an error, runs out, or cannot be reached. -/
def targetFails (s : State) (l : List (Nat × Nat × List Byte × BitVec 256)) (k : Nat) (extra : Nat) : Bool :=
  let t := s.io.ck.targets.getD k ⟨0, 0, 0, false⟩
  s.arg.list.contains k || decide (t.len < filled l k + extra) || !reachable s s.io.ck.parts t
def putUnits (s : State) : List (Nat × Nat × List Byte × BitVec 256) → State
  | [] => s
  | e :: es =>
    let t := s.io.ck.targets.getD e.1 ⟨0, 0, 0, false⟩
    if s.arg.list.contains e.1 ∨ t.len < e.2.1 + e.2.2.1.length ∨ !reachable s s.io.ck.parts t then s
    else putUnits (setCk (targetPut s t e.2.1 e.2.2.1) fun c => { c with done := c.done + e.2.2.1.length }) es
/-- CHECKPOINT_END: the units, then the manifest; targets in `arg.list` answer with an error. -/
def execCheckpointEnd (s : State) : Out :=
  let c := s.io.ck
  if !ckQuiet s || c.restoring then .next s
  else
    let l := layout c.targets.length c.id 0 (List.replicate c.targets.length 0) (ckUnits s c.parts)
    let m := manifest s l
    let s1 := { (putUnits s l) with freeCtr := s.freeCtr + 128 }
    if ((List.range c.targets.length).any fun k => targetFails s l k (if k = 0 then m.1.length else 0)) then .next (ckOver s1 3)
    else
      let s2 := targetPut s1 (c.targets.getD 0 ⟨0, 0, 0, false⟩) (filled l 0) m.1
      let s3 := s2.modIo fun io => { io with ckImages := io.ckImages.put c.id.toNat (image s m.1 l) }
      .next (ckOver (setCk s3 fun c => { c with digest := m.2, total := c.done }) 2)

/-! ### Restore -/

/-- R421, step 1: among the domains of a partition are those it owned at the start and has lost since. -/
def restoreChecks (s : State) (x : CkImage) : Bool :=
  let c := s.io.ck
  let at0 := x.units.foldl (fun m e => if e.1 = 0 then max m (e.2.1 + e.2.2.1) else m) 0
  c.parts.all x.parts.contains &&
  targetBytes s (c.targets.getD 0 ⟨0, 0, 0, false⟩) at0 x.manifest.length == x.manifest &&
  (x.manifest.drop 112).take 64 == configDigest s &&
  (s.io.frames.filter fun e => c.parts.contains e.2.1) == (x.frames.filter fun e => c.parts.contains e.2.1) &&
  c.parts.all fun p => ((s.part p).domains ++ x.owned.getD p []).all fun d => decide (s.io.keyTime.getD d 0 ≤ x.start)
/-- What CKSTATUS shows of a restore from its start: the digest that the manifest's signature is over, and the bytes of its units. -/
def restoreOf (s : State) (x : CkImage) : State :=
  setCk s fun c => { c with digest := shake512 (x.manifest.take (x.manifest.length - 114)), total := (x.units.map fun u => u.2.2.1).sum }
/-- A unit read back from its target has the digest of its header. -/
def unitOk (s : State) (u : Nat × Nat × Nat × BitVec 256) : Bool :=
  let t := s.io.ck.targets.getD u.1 ⟨0, 0, 0, false⟩
  shake256 (targetBytes s t (u.2.1 + 64) (u.2.2.1 - 64)) == u.2.2.2
/-- Frames from the image; the lines are as they were stored. -/
def restoreFrame (s : State) (x : CkImage) (frame : Nat) : State :=
  let other := fun (n : Nat) (k : Nat) => k / n != frame
  { s with
    mem := (x.mem.filter fun e => !other (2 ^ 21) e.1).foldl (fun (m : Memory) e => m.set e.1 e.2) (s.mem.filter fun e => other (2 ^ 21) e.1),
    memPoison := s.memPoison.filter (other (2 ^ 15)),
    io := { s.io with
      lineDom := (x.doms.filter fun e => !other (2 ^ 15) e.1).foldl (fun (m : SMap (Nat × Nat)) e => m.put e.1 e.2)
        (s.io.lineDom.filter fun e => other (2 ^ 15) e.1) } }
/-- A lease that is not restored: its handle reads EVICTED until it is vacated (R164, R351). -/
def notRestored (l : Lease) : Lease := { l with st := .evicted, stopping := false, queue := [] }
/-- Contexts and tile tables; lease handles read EVICTED, and no grant repeats one of them. -/
def restoreContexts (s : State) (x : CkImage) : State :=
  let ps := s.io.ck.parts
  let dies := ps.flatMap fun p => (s.part p).dies
  let cores := x.cores.foldl (fun (m : SMap Core) e =>
    if dies.contains (e.1 / 64) then m.put e.1 { m.getD e.1 {} with saved := e.2, away := true } else m) s.cores
  let clusters := x.tiles.foldl (fun (m : SMap Cluster) e =>
    if dies.contains (e.1 / 8) then
      (let p := (s.parts.find? fun y => y.2.dies.contains (e.1 / 8)).elim 0 fun y => 4 * y.1 + y.2.cur
       m.put e.1 { m.getD e.1 {} with tiles := e.2.getD p [], saved := e.2.del p })
    else m) s.clusters
  let clusters := x.leases.foldl (fun (m : SMap Cluster) e =>
    if dies.contains (e.1 / 8) then
      (let c := m.getD e.1 {}
       m.put e.1 { c with
        gen := max c.gen e.2.1,
        leases := (e.2.2.filter fun l => ps.contains l.2.part).foldl (fun (m : SMap Lease) l => m.put l.1 (notRestored l.2))
          (c.leases.filter fun l => !ps.contains l.2.part) })
    else m) clusters
  { s with
    cores := cores, clusters := clusters,
    gangs := (x.gangs.filter fun e => ps.contains (x.launches.getD e.2.lid.toNat {}).part).foldl (fun (m : SMap Gang) e => m.put e.1 e.2)
      (s.gangs.filter fun e => !ps.contains (s.launch e.2.lid).part),
    launches := (x.launches.filter fun e => ps.contains e.2.part).foldl (fun (m : SMap Launch) e => m.put e.1 e.2)
      (s.launches.filter fun e => !ps.contains e.2.part) }
/-- Writes units back in order until one fails its digest: the state and whether all succeeded. -/
def restoreFrames (s : State) (x : CkImage) : List ((Nat × Nat × Nat) × (Nat × Nat × Nat × BitVec 256)) → State × Bool
  | [] => (s, true)
  | e :: es =>
    if !unitOk s e.2 then (s, false)
    else
      let s := if s.io.ck.parts.contains e.1.2.1 then restoreFrame s x e.1.1 else s
      restoreFrames (setCk s fun c => { c with done := c.done + e.2.2.2.1 }) x es
/-- Units that are not written back, read in order until one fails its digest: contexts come from the image, and a counter bank keeps
its words. -/
def restoreRest (s : State) : List (Nat × Nat × Nat × BitVec 256) → State × Bool
  | [] => (s, true)
  | u :: us => if unitOk s u then restoreRest (setCk s fun c => { c with done := c.done + u.2.2.1 }) us else (s, false)
/-- RESTORE_END: the units; a failing one clears EN on every queue of the partitions. -/
def execRestoreEnd (s : State) : Out :=
  let c := s.io.ck
  if c.state != 1 || !c.restoring then .next s
  else match s.io.ckImages.get? c.id.toNat with
    | none => .next (ckOver s 3)
    | some x =>
      if !ckQuiet s then .next s
      else
        let frames := x.frames.map fun e => (e.1, e.2.1, e.2.2)
        let r := restoreFrames s x (frames.zip x.units)
        let r := if r.2 then restoreRest r.1 (x.units.drop frames.length) else r
        if r.2 && s.arg.list.isEmpty then
          .next (ckOver ((restoreContexts r.1 x).modIo fun io => { io with enBarred := io.enBarred.filter fun p => !c.parts.contains p }) 2)
        else .next (ckOver (r.1.modIo fun io => { io with
          enBarred := io.enBarred ++ c.parts,
          queues := io.queues.mapVals fun _ q => if c.parts.contains q.part then { q with enable := false } else q }) 3)

end Sys2Proof.Machine
end

