-- ==== Sys2Proof/Machine/Mailbox.lean ====
section
/-! DEFINITION. The management mailbox (spec/21 R417, R418, R424; spec/20 R391, R398, R400). A command's arguments stand in the happening, as they were read at its GO write. -/
namespace Sys2Proof.Machine

/-- R417: STATUS, DLEN and TAG, then DONE, then GO falls; the signal if IEN is set. -/
def endCmd (s : State) (status : Nat) (data : List Byte) : State :=
  let m := s.io.mbox
  let s := if m.cmd.getLsbD 48 then s.signal 0 (bits m.cmd 47 40) else s
  s.modIo fun io => { io with mbox := { io.mbox with
    busy := false, done := true, status := status, dlen := data.length, tag := bits m.cmd 31 16, data := data } }
/-- A command runs only while GO is set; in RECOVERY it is denied. -/
def command' (s : State) (f : List Nat → State × Nat × List Byte) : Out :=
  if !s.io.mbox.busy then .next s
  else if s.io.recovery then .next (endCmd s 3 [])
  else
    let r := f s.arg.list
    .next (endCmd r.1 r.2.1 r.2.2)

/-! ## Attestation (R424) -/

def asciiAttest : List Byte := [0x41, 0x39, 0x36, 0x30, 0x20, 0x61, 0x74, 0x74, 0x65, 0x73, 0x74]
def report (s : State) (nonce : List Byte) : List Byte :=
  leBytes 8 s.io.ident.devhash.toNat ++ leBytes 8 (s.io.ident.level * 256 + s.io.ident.stepping) ++ leBytes 8 s.io.ident.serial ++
    leBytes 64 s.io.meas.toNat ++ configDigest s ++ nonce ++ leBytes 8 s.now
/-- ATTEST: the report for the nonce, and its signature; step 5 of R422 makes attestation available. -/
def execAttest (s : State) : Out :=
  command' s fun a =>
    let r := report s ((List.range 4).flatMap fun i => leBytes 8 (a.getD i 0))
    if !s.io.ready then (s, 3, []) else (s, 0, r ++ leBytes 114 (Config.ed448 asciiAttest r).toNat)

/-! ## Read-out (R398, R400) -/

/-- R396: the 256 bytes of a record. -/
def JRec.whole (r : JRec) : List Byte := r.bytes ++ leBytes 64 r.link.toNat ++ List.replicate 32 0
/-- R399: events that waited for a place, in their order. -/
def flush : Nat → State → State
  | 0, s => s
  | n + 1, s =>
    match s.io.journal.buffer with
    | [] => s
    | b :: rest =>
      if journalFull s then s
      else
        let s := s.modIo fun io => { io with journal := { io.journal with buffer := rest } }
        flush n (noteDone (signDue (placeRec s b.kind b.part b.vdev b.time b.words false)) b.part b.note)
/-- READOUT. -/
def execReadout (s : State) : Out :=
  command' s fun a =>
    let addr := a.getD 0 0
    let room := a.getD 1 0
    if addr % 4096 ≠ 0 ∨ room < 2 then (s, 2, [])
    else
      let ring := s.io.journal.ring
      let out := ring.take (room - 1)
      let s1 := signRec (s.modIo fun io => { io with journal := { io.journal with ring := ring.drop (room - 1) } })
      let sign := s1.io.journal.ring.getLast?.toList
      let bytes := (out ++ sign).flatMap JRec.whole
      let s2 := s1.modIo fun io => { io with
        hostMem := io.hostMem.put addr bytes, journal := { io.journal with ring := io.journal.ring.dropLast } }
      let s3 := flush s2.io.journal.buffer.length s2
      (s3, 0, leBytes 8 (out ++ sign).length ++ leBytes 8 (((out ++ sign).head?).elim 0 fun r => r.jidx))

/-! ## Frames and quotas (R389, R391, R393) -/

/-- A frame number lies on a die of the partition, in its HBM. -/
def frameOf (s : State) (pid frame : Nat) : Bool :=
  (s.part pid).dies.contains (frame / 2 ^ 16) && decide (frame % 2 ^ 16 * 2 ^ 21 + 2 ^ 21 ≤ 96000000000)
def frameRec (s : State) (pid vd pa : Nat) : State :=
  let p := s.part pid
  journal s 3 pid (if vd = 0xFF then 0xFF else 4 * pid + vd) [3, p.frames.used, p.frames.limit, pa]
/-- FRAMESET. -/
def execFrameset (s : State) : Out :=
  command' s fun a =>
    let pid := a.getD 0 0
    let v := a.getD 1 0
    let pa := a.getD 2 0
    let fs := (List.range (a.getD 3 0)).map fun i => pa / 2 ^ 21 + i
    if !s.parts.has pid ∨ (4 ≤ v ∧ v ≠ 0xFF) ∨ pa % 2 ^ 21 ≠ 0 ∨ !fs.all (frameOf s pid) then (s, 2, [])
    else
      let p := s.part pid
      let held := fs.filter s.io.frames.has
      if v = 0xFF then
        (let s := (s.modPart pid fun p => { p with
              frames := { p.frames with used := p.frames.used - held.length }, freed := p.freed + min held.length p.frames.used }).modIo
            fun io => { io with frames := io.frames.filter fun e => !fs.contains e.1 }
         (quotaChange (frameRec s pid v pa) pid, 0, []))
      else
        let more := fs.length - held.length
        if more ≠ 0 ∧ p.frames.limit < p.frames.used + more then
          (let s := frameRec s pid v pa
           if p.frames.used = p.frames.limit && !p.qexh.getLsbD 3 then
             (quotaFollow (quotaRec (s.modPart pid fun p => { p with qexh := p.qexh ||| 8#5 }) pid 3 pa) pid, 3, [])
           else (s, 3, []))
        else
          let s := (s.modPart pid fun p => { p with frames := { p.frames with used := p.frames.used + more } }).modIo
            fun io => { io with frames := fs.foldl (fun (m : SMap (Nat × Nat)) f => m.put f (pid, 4 * pid + v)) io.frames }
          (frameRec s pid v pa, 0, [])
/-- QUOTASET. -/
def execQuotaset (s : State) : Out :=
  command' s fun a =>
    let pid := a.getD 0 0
    let k := a.getD 1 0
    let v := a.getD 2 0
    if !s.parts.has pid ∨ 4 < k then (s, 2, [])
    else
      let s := s.modPart pid fun p => match k with
        | 0 => { p with ecap := v }
        | 1 => { p with lease := { p.lease with limit := v } }
        | 2 => { p with launches := { p.launches with limit := v } }
        | 3 => { p with frames := { p.frames with limit := v } }
        | _ => { p with furlong := { p.furlong with limit := v } }
      (quotaChange (quotaRec s pid k 0) pid, 0, [])

/-! ## Perch sessions (R401, R418) -/

/-- PERCHBIND. -/
def execPerchbind (s : State) : Out :=
  command' s fun a =>
    let pid := a.getD 0 0
    if !s.parts.has pid then (s, 2, [])
    else if bound s then (s, 4, [])
    else (modPerch s fun _ => { part := pid }, 0, [])
/-- PERCHUNBIND. -/
def execPerchunbind (s : State) : Out := command' s fun _ => (endSession s, 0, [])

/-! ## Checkpoints (R418, R419, R421) -/

/-- CHECKPOINT: it has started. -/
def execCheckpoint (s : State) : Out :=
  command' s fun a =>
    if s.io.ck.state = 1 then (s, 4, [])
    else match ckStart s false a with
      | none => (s, 2, [])
      | some s => (stopParts (ckRecord s) s.io.ck.parts, 0, [])
/-- RESTORE: the manifest's checks; if one fails, the state ends FAILED and nothing is written. -/
def execRestore (s : State) : Out :=
  command' s fun a =>
    if s.io.ck.state = 1 then (s, 4, [])
    else match ckStart s true a with
      | none => (s, 2, [])
      | some s =>
        match s.io.ckImages.get? s.io.ck.id.toNat with
        | none => (ckOver s 3, 0, [])
        | some x =>
          let s := restoreOf s x
          if restoreChecks s x then (stopParts (ckRecord s) s.io.ck.parts, 0, []) else (ckOver s 3, 0, [])
/-- CKSTATUS. -/
def execCkstatus (s : State) : Out :=
  command' s fun _ =>
    let c := s.io.ck
    (s, 0, leBytes 8 c.state ++ leBytes 8 c.restoring.toNat ++ leBytes 8 c.done ++ leBytes 8 c.total ++ leBytes 64 c.digest.toNat)

/-! ## GO (R417) -/

/-- The row of a command. -/
def commandRow (op : Nat) : Option Instr :=
  match op with
  | 1 => some .attest | 2 => some .readout | 3 => some .frameset | 4 => some .quotaset | 5 => some .perchbind
  | 6 => some .perchunbind | 7 => some .checkpoint | 8 => some .ckstatus | 9 => some .restore | 10 => some .warmreset
  | _ => none
/-- A write of MBCMD: while GO reads 1, a write with GO is ignored, and one without sets the other fields; the arguments are read at GO. -/
def writeCmd (s : State) (v : Word) : State :=
  let m := s.io.mbox
  if m.busy && v.getLsbD 63 then s
  else
    let s := s.modIo fun io => { io with mbox := { m with cmd := v &&& 0x0001FF00FFFFFFFF#64, busy := m.busy || v.getLsbD 63 } }
    if !v.getLsbD 63 then s
    else match commandRow (bits v 15 0) with
      | none => endCmd s (if s.io.recovery then 3 else 1) []
      | some r => s.post r { s.arg with list := m.args.map BitVec.toNat }
/-- MBSTAT: DONE is cleared by a 1; the rest is read-only. -/
def writeStat (s : State) (v : Word) : State :=
  s.modIo fun io => { io with mbox := { io.mbox with done := io.mbox.done && !v.getLsbD 63 } }
def writeMbarg (s : State) (n : Nat) (v : Word) : State :=
  s.modIo fun io => { io with mbox := { io.mbox with args := setAt io.mbox.args n v } }

end Sys2Proof.Machine
end

