-- ==== Sys2Proof/Machine/Replay.lean ====
section
/-! DEFINITION. Capture and replay of a virtual device (spec/21 R411, R412), and register writes through BAR 0 (spec/01 R7, R8; spec/19 R354; spec/21 R402, R413 to R418). -/
namespace Sys2Proof.Machine

/-! ## Capture and replay -/

/-- Frames of a virtual device in ascending order. -/
def framesOf (s : State) (v : Nat) : List Nat := (s.io.frames.filter fun e => e.2.2 == v).map Prod.fst
/-- A slice boundary of a virtual device: no block of it is resident. -/
def atSlice (s : State) (v : Nat) : Bool := s.cores.all fun e => (e.2.block.elim true fun b => (s.launch b.lid).vdev != v)
/-- REPLAY_CAPTURE: the snapshot; launches are recorded as their records are read, and checksums as they end. -/
def execReplayCapture (s : State) : Out :=
  let v := s.arg.vdev
  if s.vdevs.has v && atSlice s v && (replaying s).isNone then
    let fs := framesOf s v
    let c : Capture := {
      part := v / 4, vdev := v, time := s.now, frames := fs,
      mem := s.mem.filter fun e => fs.contains (e.1 / 2 ^ 21), doms := s.io.lineDom.filter fun e => fs.contains (e.1 / 2 ^ 15) }
    .next (s.modIo fun io => { io with capture := some c, replay := none })
  else .next s

/-- The frame that takes a captured frame's place in the target. -/
def placeOf (c : Capture) (fs : List Nat) (frame : Nat) : Nat := fs.getD (c.frames.idxOf frame) frame
def restoreSnapshot (s : State) (c : Capture) (fs : List Nat) : State :=
  let mem := c.mem.foldl (fun (m : Memory) e => m.set (placeOf c fs (e.1 / 2 ^ 21) * 2 ^ 21 + e.1 % 2 ^ 21) e.2)
    (s.mem.filter fun e => !fs.contains (e.1 / 2 ^ 21))
  let doms := c.doms.foldl (fun (m : SMap (Nat × Nat)) e => m.put (placeOf c fs (e.1 / 2 ^ 15) * 2 ^ 15 + e.1 % 2 ^ 15) e.2)
    (s.io.lineDom.filter fun e => !fs.contains (e.1 / 2 ^ 15))
  { s with mem := mem, memPoison := s.memPoison.filter (fun l => !fs.contains (l / 2 ^ 15)), io := { s.io with lineDom := doms } }
/-- Writes a captured record into the next place of its queue's ring and rings the doorbell. -/
def submitOne (s : State) (r : CapRec) : Option State :=
  let q := queue s r.queue
  if (q.qtail + 2 ^ 32 - q.qhead) % 2 ^ 32 ≥ 2 ^ q.size then none
  else match writeWords s (partAgent s q.part q.vdev true) (q.qbase + 128 * (q.qtail % 2 ^ q.size)) r.words with
    | .error _ => none
    | .ok s => some (doorbell s r.queue ((q.qtail + 1) % 2 ^ 32))
/-- Submits records in order as far as the rings have room. -/
def submit (c : Capture) : List Nat → State → State
  | [], s => s
  | i :: is, s =>
    match c.recs[i]? with
    | none => s
    | some r =>
      match submitOne s r with
      | none => s
      | some s =>
        submit c is (s.modIo fun io => { io with replay := io.replay.map fun x => { x with todo := x.todo.erase i, sent := x.sent ++ [i] } })
/-- REPLAY: the snapshot into virtual device `vdev`, then the records; while it runs, it goes on with records that found no room. -/
def execReplay (s : State) : Out :=
  let v := s.arg.vdev
  match s.io.capture with
  | none => .next s
  | some c =>
    match replaying s with
    | some r => .next (if r.vdev = v then submit c r.todo s else s)
    | none =>
      let fs := framesOf s v
      if s.vdevs.has v && atSlice s v && fs.length == c.frames.length && !(s.launches.vals.any fun l => l.vdev == v) then
        let todo := List.range c.recs.length
        let s := (restoreSnapshot s c fs).modIo fun io => { io with replay := some { vdev := v, n := todo.length, todo := todo } }
        .next (submit c todo s)
      else .next s

/-! ## Register writes through BAR 0 (R413) -/

/-- Queue registers (R354): QBASE, QCTL, QTAIL; the others are read-only. HALTED has a row of its own. -/
def writeQueue (s : State) (q off : Nat) (v : Word) : State :=
  let x := queue s q
  match off with
  | 0x00 => setQueue s q { x with qbase := v.toNat % 2 ^ 56 / 128 * 128 }
  | 0x08 => if v.getLsbD 63 then s.post .qctlHaltedClear { queue := q, val := v } else setQueue s q (qctlFields s x v)
  | 0x10 => s.post .qtailDoorbell { queue := q, val := v }
  | _ => s
/-- Whether a BAR 0 offset is a queue's QTAIL. -/
def isDoorbell (off : Nat) : Bool := decide (0x10000 ≤ off) && decide (off < 0x14000) && off % 64 == 0x10
/-- A word of a descriptor (R415): VA, LEN, CTR, OFF. -/
def writeDescWord (s : State) (vd off : Nat) (v : Word) : State :=
  let i := off / 32
  let x := s.io.windows.getD (64 * vd + i) {}
  let a := { s.arg with unit := vd + 1, sel := i, addr := x.va, len := x.len, val := BitVec.ofNat 64 x.ctr, off := x.off }
  match off % 32 with
  | 0 => s.post .publicationDescriptorWrite { a with addr := v.toNat }
  | 8 => s.post .publicationDescriptorWrite { a with len := bits v 31 0 }
  | 16 => s.post .publicationDescriptorWrite { a with val := v }
  | 24 => s.post .publicationDescriptorWrite { a with off := v.toNat }
  | _ => s
/-- Ring registers (R402): refused while armed, or where the ring would lie outside the partition's frames, and with a LOG outside
12 to 30 (log 44). -/
def writeRing (s : State) (armed : Bool) (base size : Nat) (f : Perch → Perch) : State :=
  if armed ∨ size < 12 ∨ 30 < size ∨ !inFrames s s.io.perch.part base (2 ^ size) then perchErr s else modPerch s f
/-- STOPCMD's row by OP. -/
def stopRow (op : Nat) : Option Instr :=
  match op with
  | 1 => some .perchWarpStop | 2 => some .perchPathHold | 3 => some .perchReleaseWarp | 4 => some .perchReleasePath
  | 5 => some .perchReleaseAll
  | _ => none
/-- The Perch window (R402). Bit 0 of a breakpoint's ADDR, which is ignored, reads back 0 (log 44). -/
def writePerch (s : State) (off : Nat) (v : Word) : State :=
  let p := s.io.perch
  if !bound s then s
  else match off with
    | 0x00 => modPerch s fun p => { p with err := p.err && !v.getLsbD 1 }
    | 0x08 => s.post .sampleArm { val := v }
    | 0x40 => writeRing s (p.smpCtl.getLsbD 0) (v.toNat % 2 ^ 56 / 64 * 64) p.srSize fun p => { p with srBase := v.toNat % 2 ^ 56 / 64 * 64 }
    | 0x48 => writeRing s (p.smpCtl.getLsbD 0) p.srBase (bits v 4 0) fun p => { p with srSize := bits v 4 0 }
    | 0x50 => s.post .traceArm { val := v }
    | 0x58 => writeRing s (p.trCtl.getLsbD 0) (v.toNat % 2 ^ 56 / 64 * 64) p.trSize fun p => { p with trBase := v.toNat % 2 ^ 56 / 64 * 64 }
    | 0x60 => writeRing s (p.trCtl.getLsbD 0) p.trBase (bits v 4 0) fun p => { p with trSize := bits v 4 0 }
    | 0x78 => modPerch s fun p => { p with stopLid := v }
    | 0x80 => match stopRow (bits v 3 0) with
      | some r => s.post r { val := v }
      | none => perchErr s
    | 0x100 => if inFrames s p.part (v.toNat % 2 ^ 56 / 8 * 8) 8 then modPerch s fun p => { p with maddr := v.toNat % 2 ^ 56 / 8 * 8 } else perchErr s
    | 0x108 => s.post .mdataWrite { val := v }
    | 0x110 => modPerch s fun p => { p with wsel := v &&& 0xFFFFFFFFFF000000#64 }
    | o =>
      if 0x10 ≤ o ∧ o ≤ 0x38 ∧ o % 8 = 0 then 
        (let words := setAt p.smpCores ((o - 0x10) / 8) v
         modPerch (if p.smpCtl.getLsbD 0 then { s with cores := selected s words } else s) fun p => { p with smpCores := words })
      else if 0xC0 ≤ o ∧ o ≤ 0xF8 ∧ o % 8 = 0 then
        modPerch s fun p => { p with bps := setAt p.bps ((o - 0xC0) / 8) (v &&& 0xC0FFFFFFFFFFFFFE#64) }
      else s
/-- REGISTER_WRITE: function `unit` (0 the physical one), BAR 0 offset `addr`, value `val`. What a function does not own, and
read-only fields, take no write. -/
def writeReg (s : State) (fn off : Nat) (v : Word) : State :=
  if 0x1000 ≤ off ∧ off < 0x2000 ∧ fn = 0 then
    match off - 0x1000 with
    | 0x00 => writeCmd s v
    | 0x08 => writeStat s v
    | o => if 0x10 ≤ o ∧ o ≤ 0xF8 ∧ o % 8 = 0 then writeMbarg s ((o - 0x10) / 8) v else s
  else if !s.io.ready then s
  else if 0x10000 ≤ off ∧ off < 0x14000 ∧ fn ≠ 0 then
    let q := (off - 0x10000) / 64
    if (s.io.queues.get? q).any fun x => x.vdev == fn - 1 then writeQueue s q (off % 64) v else s
  else if 0x20000 ≤ off ∧ off < 0x20800 ∧ fn ≠ 0 then writeDescWord s (fn - 1) (off - 0x20000) v
  else if 0x100000 ≤ off ∧ off < 0x200000 ∧ fn = 0 then writePerch s (off - 0x100000) v
  else s
def execRegisterWrite (s : State) : Out := .next (writeReg s s.arg.unit s.arg.addr s.arg.val)

/-! ## Register reads through BAR 0: views of the state (R402, R413 to R417) -/

/-- The warp the context windows show: stopped by the session, halted, or FAULTED (R402). -/
def shown (s : State) : Option (Where × Warp) :=
  (named s s.io.perch.stopLid s.io.perch.wsel).filter fun e => e.2.isStopped || e.2.life == .faulted
/-- The state in which a shown warp's CSRs are read: that of its own context. -/
def contextOf (s : State) (p : Where) : State :=
  match p with
  | .here _ => s
  | .saved core vd _ => s.modCore core fun c => { c with ctrPage := (c.saved.getD vd {}).ctrPage }
/-- STOPST: a stop that was pending at the last STOPCMD is done once the warp it named has stopped, or the path is held. -/
def stopStatus (s : State) : Nat :=
  let p := s.io.perch
  if p.stopSt = 1 && !((named s p.stopOf.1 p.stopOf.2).any fun e => e.2.life == .live && (e.2.perchReq && !e.2.perched || e.2.smode && e.2.p.hold)) then 0
  else p.stopSt
def pathWord (p : Path) (k : Nat) : Nat :=
  match k with
  | 0 => p.pc | 1 => p.lanes.toNat | 2 => p.exec.toNat | _ => p.age
/-- Context windows: s, m, CSRs, path table, v and b registers. -/
def contextWord (s : State) (off : Nat) : Nat :=
  match shown s with
  | none => 0
  | some (p, w) =>
    if 0x10000 ≤ off ∧ off < 0x10400 then (w.rdS (BitVec.ofNat 7 ((off - 0x10000) / 8))).toNat
    else if 0x10400 ≤ off ∧ off < 0x10480 then (w.rdM (BitVec.ofNat 4 ((off - 0x10400) / 8))).toNat
    else if 0x10800 ≤ off ∧ off < 0x10C00 then (csrRead (contextOf s p) w ((off - 0x10800) / 8)).getD 0
    else if 0x10C00 ≤ off ∧ off < 0x10D00 then
      (let e := (off - 0x10C00) / 32
       let k := off / 8 % 4
       if e = w.pid then pathWord w.p k else (w.paths.get? e).elim 0 fun p => pathWord p k)
    else if 0x20000 ≤ off ∧ off < 0x30000 then
      (let v := BitVec.ofNat 8 ((off - 0x20000) / 256)
       let L := off % 256 / 4
       (w.lane v L).toNat + 2 ^ 32 * (w.lane v (L + 1)).toNat)
    else if 0x30000 ≤ off ∧ off < 0x30400 then
      (let b := BitVec.ofNat 2 ((off - 0x30000) / 256)
       let L := off % 256 / 4
       (w.brkLane b L).toNat + 2 ^ 32 * (w.brkLane b (L + 1)).toNat)
    else 0
def readPerch (s : State) (off : Nat) : Nat :=
  let p := s.io.perch
  match off with
  | 0x00 => p.part * 256 + p.err.toNat * 2 + (bound s).toNat
  | 0x08 => p.smpCtl.toNat | 0x40 => p.srBase | 0x48 => p.srSize | 0x50 => p.trCtl.toNat | 0x58 => p.trBase | 0x60 => p.trSize
  | 0x78 => p.stopLid.toNat
  | 0x88 => stopStatus s
  | 0x100 => p.maddr | 0x108 => (mdata s).2.toNat | 0x110 => p.wsel.toNat
  | o =>
    if 0x10 ≤ o ∧ o ≤ 0x38 ∧ o % 8 = 0 then (p.smpCores.getD ((o - 0x10) / 8) 0).toNat
    else if 0xC0 ≤ o ∧ o ≤ 0xF8 ∧ o % 8 = 0 then (p.bps.getD ((o - 0xC0) / 8) 0).toNat
    else contextWord s o
def readQueue (x : Queue) (off : Nat) : Nat :=
  match off with
  | 0x00 => x.qbase
  | 0x08 => x.halted.toNat * 2 ^ 63 + x.size * 2 ^ 12 + x.vdev % 4 * 2 ^ 8 + x.prio * 16 + x.enable.toNat
  | 0x10 => x.qtail | 0x18 => x.qhead | 0x20 => x.qdone | 0x28 => x.reason * 256 + x.status
  | _ => 0
def readDesc (x : Window) (off : Nat) : Nat :=
  match off with
  | 0 => x.va | 8 => x.len | 16 => x.ctr | _ => x.off
def readPort (x : Port) (off : Nat) : Nat :=
  match off with
  | 0 => x.peerPkg * 2 ^ 48 + x.peerPort * 2 ^ 40 + x.lanes * 4 + x.state
  | 8 => x.txseq | 16 => x.retry | _ => x.downs
def readIdent (x : Identity) (off : Nat) : Nat :=
  match off with
  | 0x00 => x.devhash.toNat | 0x08 => x.level * 256 + x.stepping | 0x10 => x.serial | 0x18 => x.bootst | 0x20 => x.furid
  | _ => 0
def readMbox (m : Mailbox) (off : Nat) : Nat :=
  match off with
  | 0x00 => m.busy.toNat * 2 ^ 63 + m.cmd.toNat
  | 0x08 => m.done.toNat * 2 ^ 63 + m.dlen * 2 ^ 32 + m.tag * 2 ^ 16 + m.status
  | o => if o < 0x100 then (m.args.getD ((o - 0x10) / 8) 0).toNat else leVal ((m.data.drop (o - 0x100)).take 8)
/-- What a read of the aligned word at a BAR 0 offset returns to a function. -/
def readReg (s : State) (fn off : Nat) : Nat :=
  if off < 0x1000 then readIdent s.io.ident off
  else if off < 0x2000 then (if fn = 0 then readMbox s.io.mbox (off - 0x1000) else 0)
  else if !s.io.ready then 0
  else if 0x10000 ≤ off ∧ off < 0x14000 then
    (match s.io.queues.get? ((off - 0x10000) / 64) with
     | some x => if fn ≠ 0 ∧ x.vdev = fn - 1 then readQueue x (off % 64) else 0
     | none => 0)
  else if 0x20000 ≤ off ∧ off < 0x20800 then
    (if fn = 0 then 0 else readDesc (s.io.windows.getD (64 * (fn - 1) + (off - 0x20000) / 32) {}) (off % 32))
  else if 0x30000 ≤ off ∧ off < 0x38000 then (if fn = 0 then 0 else (bankWord s (fn - 1) ((off - 0x30000) / 8)).toNat)
  else if 0x40000 ≤ off ∧ off < 0x40480 then (if fn = 0 then readPort (port s ((off - 0x40000) / 32)) (off % 32) else 0)
  else if 0x100000 ≤ off ∧ off < 0x200000 then (if fn = 0 ∧ bound s then readPerch s (off - 0x100000) else 0)
  else 0

end Sys2Proof.Machine
end

