-- ==== Sys2Proof/Machine/Dispatch.lean ====
section
/-! DEFINITION. Which meaning each instruction and each happening has: one arm per constructor of Instr. -/
namespace Sys2Proof.Machine

/-- The effect of an instruction of the acting warp, or of the happening whose operands State.arg holds. -/
def exec (i : Instr) (s : State) : Host.Outcome State Fault Refusal :=
  match i with
  | .vadd c d a b ms m => Sys2Proof.Machine.execVadd c d a b ms m s
  | .vsub c d a b ms m => Sys2Proof.Machine.execVsub c d a b ms m s
  | .vmul c d a b ms => Sys2Proof.Machine.execVmul c d a b ms s
  | .vmulh c d a b ms u => Sys2Proof.Machine.execVmulh c d a b ms u s
  | .vmad c d a b cc ms => Sys2Proof.Machine.execVmad c d a b cc ms s
  | .vand c d a b ms => Sys2Proof.Machine.execVand c d a b ms s
  | .vor c d a b ms => Sys2Proof.Machine.execVor c d a b ms s
  | .vxor c d a b ms => Sys2Proof.Machine.execVxor c d a b ms s
  | .vshl c d a b ms => Sys2Proof.Machine.execVshl c d a b ms s
  | .vshr c d a b ms => Sys2Proof.Machine.execVshr c d a b ms s
  | .vsra c d a b ms => Sys2Proof.Machine.execVsra c d a b ms s
  | .vmin c d a b ms => Sys2Proof.Machine.execVmin c d a b ms s
  | .vmax c d a b ms => Sys2Proof.Machine.execVmax c d a b ms s
  | .vminn c d a b ms => Sys2Proof.Machine.execVminn c d a b ms s
  | .vmaxn c d a b ms => Sys2Proof.Machine.execVmaxn c d a b ms s
  | .vabs c d a ms m => Sys2Proof.Machine.execVabs c d a ms m s
  | .vneg c d a ms m => Sys2Proof.Machine.execVneg c d a ms m s
  | .vclz c d a ms => Sys2Proof.Machine.execVclz c d a ms s
  | .vpopc c d a ms => Sys2Proof.Machine.execVpopc c d a ms s
  | .vcmp c d a b ms p => Sys2Proof.Machine.execVcmp c d a b ms p s
  | .vsel c d a b cc ms => Sys2Proof.Machine.execVsel c d a b cc ms s
  | .vmov c f ms => Sys2Proof.Machine.execVmov c f ms s
  | .vlane c d ms => Sys2Proof.Machine.execVlane c d ms s
  | .vaddi c d a ms imm => Sys2Proof.Machine.execVaddi c d a ms imm s
  | .vandi c d a ms imm => Sys2Proof.Machine.execVandi c d a ms imm s
  | .vori c d a ms imm => Sys2Proof.Machine.execVori c d a ms imm s
  | .vxori c d a ms imm => Sys2Proof.Machine.execVxori c d a ms imm s
  | .vshli c d a ms n => Sys2Proof.Machine.execVshli c d a ms n s
  | .vshri c d a ms n => Sys2Proof.Machine.execVshri c d a ms n s
  | .vsrai c d a ms n => Sys2Proof.Machine.execVsrai c d a ms n s
  | .vmovi c d ms imm => Sys2Proof.Machine.execVmovi c d ms imm s
  | .vcmpi c d a ms p imm => Sys2Proof.Machine.execVcmpi c d a ms p imm s
  | .fadd c d a b ms r => Sys2Proof.Machine.execFadd c d a b ms r s
  | .fsub c d a b ms r => Sys2Proof.Machine.execFsub c d a b ms r s
  | .fmul c d a b ms r => Sys2Proof.Machine.execFmul c d a b ms r s
  | .ffma c d a b cc ms r => Sys2Proof.Machine.execFfma c d a b cc ms r s
  | .fmin c d a b ms => Sys2Proof.Machine.execFmin c d a b ms s
  | .fmax c d a b ms => Sys2Proof.Machine.execFmax c d a b ms s
  | .fabs c d a ms => Sys2Proof.Machine.execFabs c d a ms s
  | .fneg c d a ms => Sys2Proof.Machine.execFneg c d a ms s
  | .fcmp c d a b ms p => Sys2Proof.Machine.execFcmp c d a b ms p s
  | .fclass c d a ms => Sys2Proof.Machine.execFclass c d a ms s
  | .fdiv c d a b ms r => Sys2Proof.Machine.execFdiv c d a b ms r s
  | .fsqrt c d a ms r => Sys2Proof.Machine.execFsqrt c d a ms r s
  | .frcp c d a ms => Sys2Proof.Machine.execFrcp c d a ms s
  | .frsq c d a ms => Sys2Proof.Machine.execFrsq c d a ms s
  | .fexp2 c d a ms => Sys2Proof.Machine.execFexp2 c d a ms s
  | .flog2 c d a ms => Sys2Proof.Machine.execFlog2 c d a ms s
  | .fsin c d a ms => Sys2Proof.Machine.execFsin c d a ms s
  | .fcos c d a ms => Sys2Proof.Machine.execFcos c d a ms s
  | .fscale c d a b ms r => Sys2Proof.Machine.execFscale c d a b ms r s
  | .ftanh c d a ms => Sys2Proof.Machine.execFtanh c d a ms s
  | .hfma2 c d a b cc ms r bf => Sys2Proof.Machine.execHfma2 c d a b cc ms r bf s
  | .hadd2 c d a b ms r bf => Sys2Proof.Machine.execHadd2 c d a b ms r bf s
  | .hmul2 c d a b ms r bf => Sys2Proof.Machine.execHmul2 c d a b ms r bf s
  | .scacc c d a b cc ms => Sys2Proof.Machine.execScacc c d a b cc ms s
  | .cvt c d a ms dst src r => Sys2Proof.Machine.execCvt c d a ms dst src r s
  | .pack c d a b ms t hi r => Sys2Proof.Machine.execPack c d a b ms t hi r s
  | .unpack c d a ms t n => Sys2Proof.Machine.execUnpack c d a ms t n s
  | .shfl c d a b ms g m => Sys2Proof.Machine.execShfl c d a b ms g m s
  | .shflup c d a n ms g m => Sys2Proof.Machine.execShflup c d a n ms g m s
  | .shfldn c d a n ms g m => Sys2Proof.Machine.execShfldn c d a n ms g m s
  | .shflx c d a n ms g m => Sys2Proof.Machine.execShflx c d a n ms g m s
  | .bcast c d a l ms g m => Sys2Proof.Machine.execBcast c d a l ms g m s
  | .vredadd c d a ms g => Sys2Proof.Machine.execVredadd c d a ms g s
  | .vredmin c d a ms g u => Sys2Proof.Machine.execVredmin c d a ms g u s
  | .vredmax c d a ms g u => Sys2Proof.Machine.execVredmax c d a ms g u s
  | .fredadd c d a ms g r => Sys2Proof.Machine.execFredadd c d a ms g r s
  | .fredmin c d a ms g => Sys2Proof.Machine.execFredmin c d a ms g s
  | .fredmax c d a ms g => Sys2Proof.Machine.execFredmax c d a ms g s
  | .vscan c d a ms g ex => Sys2Proof.Machine.execVscan c d a ms g ex s
  | .fscan c d a ms g ex r => Sys2Proof.Machine.execFscan c d a ms g ex r s
  | .vfroms c d a ms => Sys2Proof.Machine.execVfroms c d a ms s
  | .vtos c d a l ms sx => Sys2Proof.Machine.execVtos c d a l ms sx s
  | .vins c d a l ms => Sys2Proof.Machine.execVins c d a l ms s
  | .sbind c d a b cc wr esize => Sys2Proof.Machine.execSbind c d a b cc wr esize s
  | .sunbind c d => Sys2Proof.Machine.execSunbind c d s
  | .sseek c d a rel => Sys2Proof.Machine.execSseek c d a rel s
  | .spos c d a f => Sys2Proof.Machine.execSpos c d a f s
  | .ld c d m w => Sys2Proof.Machine.execLd c d m w s
  | .st c d m w => Sys2Proof.Machine.execSt c d m w s
  | .ldsc c d m w => Sys2Proof.Machine.execLdsc c d m w s
  | .stsc c d m w => Sys2Proof.Machine.execStsc c d m w s
  | .pref c m w => Sys2Proof.Machine.execPref c m w s
  | .atomAdd c d m w64 => Sys2Proof.Machine.execAtomAdd c d m w64 s
  | .atomSub c d m w64 => Sys2Proof.Machine.execAtomSub c d m w64 s
  | .atomAnd c d m w64 => Sys2Proof.Machine.execAtomAnd c d m w64 s
  | .atomOr c d m w64 => Sys2Proof.Machine.execAtomOr c d m w64 s
  | .atomXor c d m w64 => Sys2Proof.Machine.execAtomXor c d m w64 s
  | .atomMin c d m w64 => Sys2Proof.Machine.execAtomMin c d m w64 s
  | .atomMax c d m w64 => Sys2Proof.Machine.execAtomMax c d m w64 s
  | .atomMinn c d m w64 => Sys2Proof.Machine.execAtomMinn c d m w64 s
  | .atomMaxn c d m w64 => Sys2Proof.Machine.execAtomMaxn c d m w64 s
  | .atomXchg c d m w64 => Sys2Proof.Machine.execAtomXchg c d m w64 s
  | .atomCas c d m w64 => Sys2Proof.Machine.execAtomCas c d m w64 s
  | .redAdd c d m w64 => Sys2Proof.Machine.execRedAdd c d m w64 s
  | .redSub c d m w64 => Sys2Proof.Machine.execRedSub c d m w64 s
  | .redAnd c d m w64 => Sys2Proof.Machine.execRedAnd c d m w64 s
  | .redOr c d m w64 => Sys2Proof.Machine.execRedOr c d m w64 s
  | .redXor c d m w64 => Sys2Proof.Machine.execRedXor c d m w64 s
  | .redMin c d m w64 => Sys2Proof.Machine.execRedMin c d m w64 s
  | .redMax c d m w64 => Sys2Proof.Machine.execRedMax c d m w64 s
  | .redMinn c d m w64 => Sys2Proof.Machine.execRedMinn c d m w64 s
  | .redMaxn c d m w64 => Sys2Proof.Machine.execRedMaxn c d m w64 s
  | .fatomAdd c d m => Sys2Proof.Machine.execFatomAdd c d m s
  | .fatomMin c d m => Sys2Proof.Machine.execFatomMin c d m s
  | .fatomMax c d m => Sys2Proof.Machine.execFatomMax c d m s
  | .fredAdd c d m => Sys2Proof.Machine.execFredAdd c d m s
  | .fredMin c d m => Sys2Proof.Machine.execFredMin c d m s
  | .fredMax c d m => Sys2Proof.Machine.execFredMax c d m s
  | .ldres c d m w64 => Sys2Proof.Machine.execLdres c d m w64 s
  | .stcon c d m w64 => Sys2Proof.Machine.execStcon c d m w64 s
  | .fence c sc => Sys2Proof.Machine.execFence c sc s
  | .barinit c d base off => Sys2Proof.Machine.execBarinit c d base off s
  | .bararr c base off => Sys2Proof.Machine.execBararr c base off s
  | .barexp c d base off => Sys2Proof.Machine.execBarexp c d base off s
  | .barwait c d base off => Sys2Proof.Machine.execBarwait c d base off s
  | .bartest c d base off clr => Sys2Proof.Machine.execBartest c d base off clr s
  | .bsync c => Sys2Proof.Machine.execBsync c s
  | .gsync c => Sys2Proof.Machine.execGsync c s
  | .lsync c => Sys2Proof.Machine.execLsync c s
  | .publish c d base off => Sys2Proof.Machine.execPublish c d base off s
  | .tdef c td k => Sys2Proof.Machine.execTdef c td k s
  | .tnew c h k => Sys2Proof.Machine.execTnew c h k s
  | .twrite c td v row => Sys2Proof.Machine.execTwrite c td v row s
  | .tseal c td => Sys2Proof.Machine.execTseal c td s
  | .tread c v ta row => Sys2Proof.Machine.execTread c v ta row s
  | .tkill c ta => Sys2Proof.Machine.execTkill c ta s
  | .tstat c h ta => Sys2Proof.Machine.execTstat c h ta s
  | .tload c td h sp f => Sys2Proof.Machine.execTload c td h sp f s
  | .tstore c ta h sp plane => Sys2Proof.Machine.execTstore c ta h sp plane s
  | .lease c h k sh => Sys2Proof.Machine.execLease c h k sh s
  | .leaset c h k sh => Sys2Proof.Machine.execLeaset c h k sh s
  | .vacate c h => Sys2Proof.Machine.execVacate c h s
  | .lstat c d h => Sys2Proof.Machine.execLstat c d h s
  | .mxloadb c h ta kb nb f => Sys2Proof.Machine.execMxloadb c h ta kb nb f s
  | .mxrun c h ta cnt r f => Sys2Proof.Machine.execMxrun c h ta cnt r f s
  | .mxdrain c td h nb r z bar => Sys2Proof.Machine.execMxdrain c td h nb r z bar s
  | .mxzero c h r => Sys2Proof.Machine.execMxzero c h r s
  | .mxconv c h r f sp => Sys2Proof.Machine.execMxconv c h r f sp s
  | .cvshape c h => Sys2Proof.Machine.execCvshape c h s
  | .dmcopy c h k => Sys2Proof.Machine.execDmcopy c h k s
  | .dmgather c h v n k => Sys2Proof.Machine.execDmgather c h v n k s
  | .dmscatter c h v n k => Sys2Proof.Machine.execDmscatter c h v n k s
  | .dmfill c h spd bar => Sys2Proof.Machine.execDmfill c h spd bar s
  | .clreduce c h tag op ty bar => Sys2Proof.Machine.execClreduce c h tag op ty bar s
  | .clgather c h tag bar => Sys2Proof.Machine.execClgather c h tag bar s
  | .clbcast c h tag bar => Sys2Proof.Machine.execClbcast c h tag bar s
  | .nop c => Sys2Proof.Machine.execNop c s
  | .pass c d a => Sys2Proof.Machine.execPass c d a s
  | .passi c d w => Sys2Proof.Machine.execPassi c d w s
  | .passx c d a b q => Sys2Proof.Machine.execPassx c d a b q s
  | .passf c d => Sys2Proof.Machine.execPassf c d s
  | .setfs c a => Sys2Proof.Machine.execSetfs c a s
  | .exit c => Sys2Proof.Machine.execExit c s
  | .exitp c a => Sys2Proof.Machine.execExitp c a s
  | .csrrd c d n => Sys2Proof.Machine.execCsrrd c d n s
  | .csrwr c n a => Sys2Proof.Machine.execCsrwr c n a s
  | .inboxClear c a => Sys2Proof.Machine.execInboxClear c a s
  | .invstateAbandon c a => Sys2Proof.Machine.execInvstateAbandon c a s
  | .waitc c cls n => Sys2Proof.Machine.execWaitc c cls n s
  | .gtime c d => Sys2Proof.Machine.execGtime c d s
  | .trap c n => Sys2Proof.Machine.execTrap c n s
  | .trapLazy c => Sys2Proof.Machine.execTrapLazy c s
  | .brk c n => Sys2Proof.Machine.execBrk c n s
  | .br c off => Sys2Proof.Machine.execBr c off s
  | .brz c a off => Sys2Proof.Machine.execBrz c a off s
  | .brnz c a off => Sys2Proof.Machine.execBrnz c a off s
  | .brnone c m off => Sys2Proof.Machine.execBrnone c m off s
  | .brany c m off => Sys2Proof.Machine.execBrany c m off s
  | .brall c m off => Sys2Proof.Machine.execBrall c m off s
  | .call c off => Sys2Proof.Machine.execCall c off s
  | .calli c v cls => Sys2Proof.Machine.execCalli c v cls s
  | .ret c => Sys2Proof.Machine.execRet c s
  | .split c m off => Sys2Proof.Machine.execSplit c m off s
  | .join c => Sys2Proof.Machine.execJoin c s
  | .sadd c d a b => Sys2Proof.Machine.execSadd c d a b s
  | .ssub c d a b => Sys2Proof.Machine.execSsub c d a b s
  | .smul c d a b => Sys2Proof.Machine.execSmul c d a b s
  | .smulh c d a b u => Sys2Proof.Machine.execSmulh c d a b u s
  | .sdiv c d a b u => Sys2Proof.Machine.execSdiv c d a b u s
  | .srem c d a b u => Sys2Proof.Machine.execSrem c d a b u s
  | .sand c d a b => Sys2Proof.Machine.execSand c d a b s
  | .sor c d a b => Sys2Proof.Machine.execSor c d a b s
  | .sxor c d a b => Sys2Proof.Machine.execSxor c d a b s
  | .sshl c d a b => Sys2Proof.Machine.execSshl c d a b s
  | .sshr c d a b => Sys2Proof.Machine.execSshr c d a b s
  | .ssra c d a b => Sys2Proof.Machine.execSsra c d a b s
  | .smin c d a b => Sys2Proof.Machine.execSmin c d a b s
  | .smax c d a b => Sys2Proof.Machine.execSmax c d a b s
  | .sminn c d a b => Sys2Proof.Machine.execSminn c d a b s
  | .smaxn c d a b => Sys2Proof.Machine.execSmaxn c d a b s
  | .scmp c d a b p => Sys2Proof.Machine.execScmp c d a b p s
  | .ssel c d a b cc => Sys2Proof.Machine.execSsel c d a b cc s
  | .smov c d a => Sys2Proof.Machine.execSmov c d a s
  | .sclz c d a => Sys2Proof.Machine.execSclz c d a s
  | .spopc c d a => Sys2Proof.Machine.execSpopc c d a s
  | .sbfx c d a pos len1 sgn => Sys2Proof.Machine.execSbfx c d a pos len1 sgn s
  | .sbfi c d a pos len1 => Sys2Proof.Machine.execSbfi c d a pos len1 s
  | .saddi c d a imm => Sys2Proof.Machine.execSaddi c d a imm s
  | .sandi c d a imm => Sys2Proof.Machine.execSandi c d a imm s
  | .sori c d a imm => Sys2Proof.Machine.execSori c d a imm s
  | .sxori c d a imm => Sys2Proof.Machine.execSxori c d a imm s
  | .sshli c d a n => Sys2Proof.Machine.execSshli c d a n s
  | .sshri c d a n => Sys2Proof.Machine.execSshri c d a n s
  | .ssrai c d a n => Sys2Proof.Machine.execSsrai c d a n s
  | .smovi c d imm => Sys2Proof.Machine.execSmovi c d imm s
  | .shii c d imm => Sys2Proof.Machine.execShii c d imm s
  | .scmpi c d a p imm => Sys2Proof.Machine.execScmpi c d a p imm s
  | .mand c d a b => Sys2Proof.Machine.execMand c d a b s
  | .mor c d a b => Sys2Proof.Machine.execMor c d a b s
  | .mxor c d a b => Sys2Proof.Machine.execMxor c d a b s
  | .mandn c d a b => Sys2Proof.Machine.execMandn c d a b s
  | .mnot c d a => Sys2Proof.Machine.execMnot c d a s
  | .mmov c d a => Sys2Proof.Machine.execMmov c d a s
  | .mcnt c d a => Sys2Proof.Machine.execMcnt c d a s
  | .mfirst c d a => Sys2Proof.Machine.execMfirst c d a s
  | .mfroms c d a => Sys2Proof.Machine.execMfroms c d a s
  | .mtos c d a => Sys2Proof.Machine.execMtos c d a s
  | .inv c o => Sys2Proof.Machine.execInv c o s
  | .dictionaryCode k n => Sys2Proof.Machine.execDictionaryCode k n s
  | .rdpr c d n => Sys2Proof.Machine.execRdpr c d n s
  | .wrpr c n a => Sys2Proof.Machine.execWrpr c n a s
  | .voteWrite c a => Sys2Proof.Machine.execVoteWrite c a s
  | .tret c => Sys2Proof.Machine.execTret c s
  | .haltg c => Sys2Proof.Machine.execHaltg c s
  | .resumeg c => Sys2Proof.Machine.execResumeg c s
  | .shsave c d a => Sys2Proof.Machine.execShsave c d a s
  | .shrest c d a => Sys2Proof.Machine.execShrest c d a s
  | .tlbinv c op a => Sys2Proof.Machine.execTlbinv c op a s
  | .evict c d a => Sys2Proof.Machine.execEvict c d a s
  | .ctrsel c a => Sys2Proof.Machine.execCtrsel c a s
  | .aszrec c d a b => Sys2Proof.Machine.execAszrec c d a b s
  | .tabort c a => Sys2Proof.Machine.execTabort c a s
  | .warpctlStat c d a => Sys2Proof.Machine.execWarpctlStat c d a s
  | .warpctlKill c d a => Sys2Proof.Machine.execWarpctlKill c d a s
  | .unassignedOpcode w => Sys2Proof.Machine.execUnassignedOpcode w s
  | .reservationGrant => Sys2Proof.Machine.execReservationGrant s
  | .spill => Sys2Proof.Machine.execSpill s
  | .slip => Sys2Proof.Machine.execSlip s
  | .tenureTransfer => Sys2Proof.Machine.execTenureTransfer s
  | .starvationRescue => Sys2Proof.Machine.execStarvationRescue s
  | .pathSwitchStall => Sys2Proof.Machine.execPathSwitchStall s
  | .pathAgeingSwitch => Sys2Proof.Machine.execPathAgeingSwitch s
  | .engineSramError => Sys2Proof.Machine.execEngineSramError s
  | .loadComplete => Sys2Proof.Machine.execLoadComplete s
  | .writeApply => Sys2Proof.Machine.execWriteApply s
  | .writeComplete => Sys2Proof.Machine.execWriteComplete s
  | .streamElementsArrive => Sys2Proof.Machine.execStreamElementsArrive s
  | .tileWriteAccept => Sys2Proof.Machine.execTileWriteAccept s
  | .tileReadComplete => Sys2Proof.Machine.execTileReadComplete s
  | .tileDrainComplete => Sys2Proof.Machine.execTileDrainComplete s
  | .definerVoid => Sys2Proof.Machine.execDefinerVoid s
  | .tileWaitWatchdog => Sys2Proof.Machine.execTileWaitWatchdog s
  | .blockStart => Sys2Proof.Machine.execBlockStart s
  | .blockRetire => Sys2Proof.Machine.execBlockRetire s
  | .syncReleaseWave => Sys2Proof.Machine.execSyncReleaseWave s
  | .leaseGrant => Sys2Proof.Machine.execLeaseGrant s
  | .leaseWake => Sys2Proof.Machine.execLeaseWake s
  | .leaseEviction => Sys2Proof.Machine.execLeaseEviction s
  | .engineStop => Sys2Proof.Machine.execEngineStop s
  | .vacateComplete => Sys2Proof.Machine.execVacateComplete s
  | .retentionExpiry => Sys2Proof.Machine.execRetentionExpiry s
  | .engineCommandComplete => Sys2Proof.Machine.execEngineCommandComplete s
  | .collectiveAbort => Sys2Proof.Machine.execCollectiveAbort s
  | .publishVersionWritten => Sys2Proof.Machine.execPublishVersionWritten s
  | .chainTimeTick => Sys2Proof.Machine.execChainTimeTick s
  | .preemptStop => Sys2Proof.Machine.execPreemptStop s
  | .hostWindowRead => Sys2Proof.Machine.execHostWindowRead s
  | .hostWindowWrite => Sys2Proof.Machine.execHostWindowWrite s
  | .publicationDescriptorWrite => Sys2Proof.Machine.execPublicationDescriptorWrite s
  | .qtailDoorbell => Sys2Proof.Machine.execQtailDoorbell s
  | .qctlHaltedClear => Sys2Proof.Machine.execQctlHaltedClear s
  | .registerWrite => Sys2Proof.Machine.execRegisterWrite s
  | .launchRecordRead => Sys2Proof.Machine.execLaunchRecordRead s
  | .waitaddrPoll => Sys2Proof.Machine.execWaitaddrPoll s
  | .gangPlacement => Sys2Proof.Machine.execGangPlacement s
  | .launchEnd => Sys2Proof.Machine.execLaunchEnd s
  | .launchDoneCount => Sys2Proof.Machine.execLaunchDoneCount s
  | .sliceEnd => Sys2Proof.Machine.execSliceEnd s
  | .preemptHandlerEntry => Sys2Proof.Machine.execPreemptHandlerEntry s
  | .forcedSave => Sys2Proof.Machine.execForcedSave s
  | .sliceStart => Sys2Proof.Machine.execSliceStart s
  | .railStep => Sys2Proof.Machine.execRailStep s
  | .railHoldEnd => Sys2Proof.Machine.execRailHoldEnd s
  | .clockSwitch => Sys2Proof.Machine.execClockSwitch s
  | .quotaExhausted => Sys2Proof.Machine.execQuotaExhausted s
  | .furlongWindow => Sys2Proof.Machine.execFurlongWindow s
  | .furlongPortDown => Sys2Proof.Machine.execFurlongPortDown s
  | .flitRetry => Sys2Proof.Machine.execFlitRetry s
  | .attest => Sys2Proof.Machine.execAttest s
  | .readout => Sys2Proof.Machine.execReadout s
  | .frameset => Sys2Proof.Machine.execFrameset s
  | .quotaset => Sys2Proof.Machine.execQuotaset s
  | .perchbind => Sys2Proof.Machine.execPerchbind s
  | .perchunbind => Sys2Proof.Machine.execPerchunbind s
  | .checkpoint => Sys2Proof.Machine.execCheckpoint s
  | .checkpointEnd => Sys2Proof.Machine.execCheckpointEnd s
  | .ckstatus => Sys2Proof.Machine.execCkstatus s
  | .restore => Sys2Proof.Machine.execRestore s
  | .restoreEnd => Sys2Proof.Machine.execRestoreEnd s
  | .warmreset => Sys2Proof.Machine.execWarmreset s
  | .powerOnReset => Sys2Proof.Machine.execPowerOnReset s
  | .perchWarpStop => Sys2Proof.Machine.execPerchWarpStop s
  | .perchPathHold => Sys2Proof.Machine.execPerchPathHold s
  | .perchReleaseWarp => Sys2Proof.Machine.execPerchReleaseWarp s
  | .perchReleasePath => Sys2Proof.Machine.execPerchReleasePath s
  | .perchReleaseAll => Sys2Proof.Machine.execPerchReleaseAll s
  | .breakpointHit => Sys2Proof.Machine.execBreakpointHit s
  | .mdataRead => Sys2Proof.Machine.execMdataRead s
  | .mdataWrite => Sys2Proof.Machine.execMdataWrite s
  | .sampleArm => Sys2Proof.Machine.execSampleArm s
  | .traceArm => Sys2Proof.Machine.execTraceArm s
  | .stallSample => Sys2Proof.Machine.execStallSample s
  | .furlongPortUp => Sys2Proof.Machine.execFurlongPortUp s
  | .furlongPortDegraded => Sys2Proof.Machine.execFurlongPortDegraded s
  | .keyDomainRekey => Sys2Proof.Machine.execKeyDomainRekey s
  | .partitionReconfigure => Sys2Proof.Machine.execPartitionReconfigure s
  | .replayCapture => Sys2Proof.Machine.execReplayCapture s
  | .replay => Sys2Proof.Machine.execReplay s

end Sys2Proof.Machine
end

