-- ==== Sys2Proof/Machine/Issue.lean ====
section
/-! DEFINITION. Issue from a slot, and the cycle of a core (spec/02 R20 to R52, R432): what a holder does in its turn, forced transfers in their order, and what a cycle counts. -/
namespace Sys2Proof.Machine

/-! ## One attempt to issue -/

/-- The header at the program counter is in force, and the body comes next. -/
def enterHeader (w : Warp) (h : Word) : Warp :=
  { w with
    wait := .none, stalled := false,
    p := { w.p with hdr := ⟨w.p.pc, h⟩, pc := w.p.pc + 8, atHdr := decide (Hdr.len h = 0), chk := false, settled := false } }
/-- A block header: its request is met and the block is in force, or the warp waits (R60). It takes its own turn. A class that is
asked for less falls at once, whether or not the other must wait. -/
def issueHeader (s : State) (h : Word) : Out :=
  let s := pinRange s s.w s.w.p.pc 8
  let w := s.w
  let r := w.request h Hdr.liveV Hdr.liveS 0
  -- the request of a handler's header was settled at the entry (R321, R341)
  if w.p.settled then .next { s with w := enterHeader w h }
  else if fits s w r then .next { s with w := enterHeader ({ w with resV := r.1, resS := r.2 } : Warp).markEntry h }
  else stall { s with w := { w with resV := min w.resV r.1, resS := min w.resS r.2 } } .header
/-- The state an instruction is executed in: its length, the PC of the attempt, and the pinned pages its fetch uses (R376). -/
def prepare (s : State) (n : Nat) : State :=
  { pinRange s s.w s.w.p.pc n with ilen := n, w := { s.w with lastPc := s.w.p.pc, p := { s.w.p with chk := false } } }
/-- What a turn of the acting warp begins with: a reservation it waits for, an arrival, or what stands at the program counter. -/
inductive Turn where
  | reserve (r : Nat × Nat)
  | arrived
  | code (f : Fetched)
  deriving DecidableEq, Repr
/-- What stands at the program counter, reservations apart. -/
def atPc (s : State) : Turn := if s.w.p.arrived.isSome then .arrived else .code (fetched s)
/-- An instruction, which counts where instructions are counted (R50); a header and a reservation are none. -/
def Turn.instr : Turn → Bool
  | .code (.body _ _) => true
  | _ => false
def takeTurn (s : State) (t : Turn) : Out :=
  match t with
  | .reserve r => if fits s s.w r then .next { s with w := takeReservation s.w r } else stall s .header
  | .arrived => stall s .none
  | .code (.body i n) => exec i (prepare s n)
  | .code (.header h) => issueHeader s h
  | .code (.trap t) => trap s t
/-- An attempt begins the wait it ends in: the warp arrives at a sync or its path at a JOIN, or it joins the lease queue, for which
it was not waiting yet. -/
def begins (s t : State) : Bool :=
  t.w.arrive != s.w.arrive || t.w.pendSync != s.w.pendSync || t.w.p.arrived != s.w.p.arrived || (queuedLease t t.w && !queuedLease s s.w)
/-- R63: the wait that a warp which is owed a reservation stands in anyhow: what is at the program counter could not issue, begin a
wait, start element reads or be recorded at a tile name. -/
def waitsAnyhow (s : State) : Bool :=
  match takeTurn s (atPc s) with
  | .next t => t.isCur s.w.key && t.w.stalled && !begins s t && t.w.wait != .header && t.w.park.isNone && t.w.p.stage == s.w.p.stage
  | _ => false
/-- R63, R321, R331: a reservation that the warp needs comes before its next instruction, and not before the end of another wait. -/
def upNext (s : State) : Turn :=
  match s.w.entry, s.w.owed with
  | some e, _ => .reserve (e.reqV, e.reqS)
  | none, some r => if waitsAnyhow s then atPc s else .reserve r
  | none, none => atPc s
/-- An instruction is executed, a header entered, a reservation or a trap taken. -/
def issueNext (s : State) : Out := takeTurn s (upNext s)

/-! ## Able to issue (R432) -/

/-- The attempt would issue, whoever holds a baton, or begin a wait. -/
def attempt (s : State) : Bool :=
  match issueNext s with
  | .next t => !(t.isCur s.w.key && t.w.stalled) || begins s t
  | _ => true
/-- A sibling path that could issue if it were the current one. -/
def siblingAble (s : State) (i : Nat) (q : Path) : Bool :=
  q.arrived.isNone && !q.hold && attempt { s with w := switchPath s.w i }
/-- R432: judged from the state as it stands. -/
def canIssue (s : State) : Bool :=
  s.w.life == .live && !s.w.isStopped && !s.w.stopped && !queuedLease s s.w &&
  ((s.w.park.isNone && !heldNow s.w && attempt s) || s.w.paths.any fun e => siblingAble s e.1 e.2)

/-! ## A turn of a slot -/

/-- R38: the block is in rescue while any age in it is above the bound. An ended warp's age stays as it was. -/
def inRescue (s : State) (core : Nat) : Bool := (s.blockWarps core).any fun w => decide (Config.rescueAge < w.age)
/-- R36, R37, R38: a tenure transfer is due at the acting warp's boundary. Whether it finds a receiver is seen after the cycle's
passes (R28). -/
def tenureDue (s : State) : Bool :=
  let w := s.w
  !w.smode && decide ((if inRescue s w.core then Config.rescueTenure else Config.tenureLimit) < w.tenure) && w.win == 0 && atBoundary w
/-- R42, row 2: the next instruction is a PASS form, EXIT or EXITP and can issue. -/
def passReady (s : State) : Bool :=
  (match fetched s with
   | .body (.dictionaryCode k n) _ => ((expand s k n).toOption).any isPassOrExit
   | .body i _ => isPassOrExit i
   | _ => false) && attempt s
/-- R50: path ageing is due: the sibling able to issue with the greatest ageing count. -/
def ageingTo (s : State) : Option Nat :=
  if Config.pathAgeing ≤ s.w.p.issued && !queuedLease s s.w then bestPath s.w (siblingAble s) else none
/-- A forced transfer falls due; it takes effect after the cycle's other turns (R28). -/
def force (s : State) (f : Forced) : State := { s with w := { s.w with forced := some f, slipDue := false } }

/-- After an instruction has issued: the slip count ends, a breakpoint passed may be taken again, a routine's instruction is
counted (R277), and the path's count rises if a sibling could issue (R50). `s` is the state of the attempt; a header or a
reservation counts as no instruction. -/
def issued (s t : State) (instr : Bool) : State :=
  let sib := instr && !s.w.paths.isEmpty && s.w.paths.any fun e => siblingAble s e.1 e.2
  t.modWarp s.w.key fun w =>
    let mark := fun (p : Path) => { p with past := none, issued := if sib then p.issued + 1 else p.issued }
    let w := { w with
      idle := 0,
      slotUse := .issued,
      inv := match w.inv, s.w.inv with
        | some r, some r0 => if instr ∧ r.n = r0.n ∧ r.pc = r0.pc ∧ w.p.pc ≠ r.target ∧ !s.w.p.atHdr then some { r with n := r.n + 1 } else w.inv
        | _, _ => w.inv }
    if w.pid = s.w.pid then { w with p := mark w.p } else { w with paths := w.paths.modify s.w.pid mark }
/-- The attempt issued a sync, which waits from the next cycle on (R256, R34). -/
def syncIssued (s t : State) : Bool :=
  s.w.arrive.isNone && s.w.pendSync.isNone && (t.w.arrive.isSome || t.w.pendSync.isSome)
/-- After an attempt that did not issue (R34, R50): a sibling path takes over, but not of a warp that a lease request holds (R157), or
the slip falls due. -/
def notIssued (t : State) : State :=
  match if queuedLease t t.w then none else bestPath t.w (siblingAble t) with
  | some i => t.post .pathSwitchStall { warp := t.w.key, path := i }
  | none =>
    if t.w.smode || decide (t.w.idle < t.w.slipw) then t
    else if atBoundary t.w then force t .slip else { t with w := { t.w with slipDue := true } }
/-- What follows an attempt. A warp that is asked to stop stops at a wait that is a safe point (R42, R52). -/
def afterTry (s t : State) (instr : Bool) : State :=
  if t.isCur s.w.key && t.w.stalled then
    (if t.w.stopReq && !t.w.smode && safePoint t then t.post .preemptStop { warp := t.w.key }
     else if syncIssued s t then t else notIssued t)
  else issued s t instr
/-- An attempt and what follows from it. -/
def try' (s : State) : Out :=
  let s := if s.w.wasParked then { s with w := { s.w with wasParked := false } } else s
  let n := upNext s
  match takeTurn s n with
  | .next t => .next (afterTry s t n.instr)
  | .fault f => .fault f
  | .refused r => .refused r
/-- R42, row 5: a path switch that is due happens although the baton moves. -/
def ageAnyway (s : State) : State :=
  match ageingTo s with
  | some i => s.post .pathAgeingSwitch { warp := s.w.key, path := i }
  | none => s
/-- Rows 5 and 6 of R42. -/
def turnOn (s : State) : Out :=
  match ageingTo s with
  | some i => exec .pathAgeingSwitch { s with arg := { warp := s.w.key, path := i } }
  | none => try' s
/-- R42, row 1: the boundary before an instruction that the warp waits to issue is a safe point (R52), judged in this cycle: the wait. -/
def waitHere (s : State) : Option Wait :=
  if s.w.inv.isSome || startedReads s.w || s.w.entry.isSome then none
  else match issueNext s with
    | .next t => if t.isCur s.w.key && t.w.stalled && t.w.wait.safe && !begins s t then some t.w.wait else none
    | _ => none
/-- R42, row 1: a stop that has been asked for takes effect at this boundary: the state to stop in. -/
def stopHere (s : State) : Option State :=
  if !s.w.stopReq || s.w.smode then none
  else if safePoint { s with w := { s.w with stalled := false } } then some s
  else (waitHere s).map fun r => { s with w := { s.w with stalled := true, wait := r } }
/-- The turn of a holder that may issue, with the precedence of R42: a stop at a safe point, a PASS form that can issue, tenure, slip,
path ageing, the instruction. -/
def turn (s : State) : Out :=
  match stopHere s with
  | some s => exec .preemptStop { s with arg := { warp := s.w.key } }
  | none =>
  if heldNow s.w then
    .next (if allHeld s.w then holdAll s s.w.key else notIssued { s with w := { s.w with stalled := true, wait := .none } })
  else if (breakpoint s s.w).isSome then exec .breakpointHit { s with arg := { warp := s.w.key } }
  else
    let slip := s.w.slipDue && !s.w.smode && atBoundary s.w
    if (tenureDue s || slip || (ageingTo s).isSome) && passReady s then try' s
    else if tenureDue s then .next (force s .tenure)
    else if slip then .next (force (ageAnyway s) .slip)
    else turnOn s

/-- R407: in WAIT mode the cores of the session's partition pause while the trace ring is full, or a record waits for its space. -/
def ringBars (s : State) (core : Nat) : Bool :=
  let p := s.io.perch
  p.trCtl.getLsbD 0 && p.trCtl.getLsbD 16 && coreIn s p.part core && (!p.trHeld.isEmpty || traceBlocked s)
/-- Whether the core pauses in the turn of slot k: it is seen at the start of a cycle, for all of it. -/
def paused (s : State) (core k : Nat) : Bool := if k = 0 then ringBars s core else (s.core core).paused
/-- A warp may issue in its slot's turn (R20, R27, R332, R408). -/
def mayIssue (w : Warp) : Bool := w.life == .live && w.busy == 0 && !w.isStopped && !w.stopped && !w.shadow && w.forced.isNone
def holderOf (s : State) (core k : Nat) : Option Warp := (s.blockWarps core).find? fun w => w.baton == some k
/-- The turn of slot k. -/
def slotTurn (s : State) (core k : Nat) : Out :=
  let b := paused s core k
  let s := s.modCore core fun c => { c with slot := k + 1, paused := b }
  match holderOf s core k with
  | none => .next s
  | some w => if mayIssue w && !b then turn (s.focus w.key) else .next s

/-- The forced transfer of slot k, if one is due there. -/
def forcedOf (s : State) (core k : Nat) : Option (Warp × Forced) :=
  (holderOf s core k).bind fun w => w.forced.map fun f => (w, f)
/-- R28, R36: the tenure transfer of a slot, after the cycle's passes: with a receiver the baton moves; without one the holder keeps
it and its turn goes on. -/
def tenureTurn (s : State) (w : Warp) : Out :=
  if (receiver s w.core w.idx).isSome then .next ((ageAnyway (s.focus w.key)).post .tenureTransfer { warp := w.key })
  else
    let s := (s.setWarp w.key { w with forced := none }).focus w.key
    if w.slipDue then turnOn { s with w := { s.w with slipDue := false, idle := 0 } } else turnOn s
/-- R28: forced transfers in ascending slot order, one at a time. A fault's baton moves here, the others by their rows. -/
def forcedTurn (s : State) (core : Nat) : Out :=
  match [0, 1, 2, 3].findSome? (forcedOf s core) with
  | none => .next (s.modCore core fun c => { c with slot := 6 })
  | some (w, .slip) => .next (s.post .slip { warp := w.key })
  | some (w, .tenure) => tenureTurn s w
  | some (w, .fault) => .next (giveUp (s.setWarp w.key { w with forced := none }) core w.idx)

/-! ## The end of a cycle -/

/-- The warps of a core judged able to issue (R432). -/
def ableWarps (s : State) (core : Nat) : List Nat :=
  ((s.blockWarps core).filter fun w => canIssue (s.focus w.key)).map Warp.idx
/-- Siblings' ageing (R50): cycles in which a path could issue but was not current. No path of a stopped warp could. -/
def agePaths (s : State) (w : Warp) : SMap Path :=
  if w.paths.isEmpty || w.isStopped || w.stopped || w.life != .live || w.shadow then w.paths else w.paths.mapVals fun i q => if siblingAble (s.focus w.key) i q then { q with age := q.age + 1 } else q
/-- What a cycle counts for a warp (R30, R34, R36, R38, R89). -/
def countWarp (able : List Nat) (paths : SMap Path) (w : Warp) : Warp :=
  { w with
    paths := paths,
    tenure := if w.holding then min (w.tenure + 1) (2 ^ 32 - 1) else 0,
    busy := w.busy - 1,
    slotUse := if w.slotUse = SlotUse.moved ∧ 1 < w.busy then SlotUse.moved else SlotUse.none,
    idle := if w.holding && w.stalled && w.busy == 0 && !w.isStopped && !w.stopped then w.idle + 1 else w.idle,
    fsuccOld := none,
    passHold := match w.passHold with
      | some (r, n + 1) => if n = 0 then none else some (r, n)
      | _ => none,
    age := if !w.holding && able.contains w.idx && w.age != Config.rescueAge then w.age + 1 else w.age,
    parkT := if w.park.isSome && !w.isStopped then w.parkT + 1 else w.parkT,
    parks := if w.isStopped then w.parks else w.parks.mapVals fun _ e => (e.1, e.2 + 1) }
/-- Length of a core cycle in 1/84 ns, by the class whose clock the cluster runs at (R363). -/
def cycleLen (cls : Nat) : Nat := match cls with
  | 0 => 105 | 1 => 84 | 2 => 70 | _ => 60
def samplePeriod (s : State) : Nat := 2 ^ bits s.io.perch.smpCtl 20 16
/-- The counters of the core itself. -/
def countCore (s : State) (core : Nat) : State :=
  s.modCore core fun c => { c with
    waveT := c.waveT - 1, left := if c.pre.isSome then c.left - 1 else c.left,
    sample := if sampled s core then (c.sample + 1) % samplePeriod s else 0 }
/-- R404: the core's sample falls into this cycle. -/
def sampleDue (s : State) (core : Nat) : Bool :=
  sampled s core && !(s.core core).paused && ((s.core core).sample + 1) % samplePeriod s == 0
/-- Rows that a cycle's end brings: rescues, a spill. `s0` is the state before the cycle was counted. -/
def cycleRows (s0 s : State) (core : Nat) (able : List Nat) : List Happening :=
  ((s0.blockWarps core).filter fun w => w.eligible && able.contains w.idx && w.age == Config.rescueAge).map
    (fun w => ⟨.starvationRescue, { warp := w.key }⟩) ++
  (if spillDue s core then [⟨.spill, { core := core }⟩] else [])
/-- R43, R63: warps that a cycle finds unable to issue because the reservation they need next is not free are WAITING-HEADER, whether
or not they hold a baton. -/
def markWaits (s : State) (core : Nat) (able : List Nat) : State :=
  (s.blockWarps core).foldl (fun s w =>
    let due := match upNext (s.focus w.key) with
      | .reserve _ => true
      | _ => w.owed.isNone && (headerNeed s w).any fun r => !fits s w r
    if w.life == .live && !w.shadow && !w.isStopped && !w.stopped && w.park.isNone && w.wait != .header && !able.contains w.idx && due then
      s.setWarp w.key { w with wait := .header }
    else s) s
/-- The end of a core's cycle. A cycle in which the core pauses (R407) counts nothing; FSUCC as written is seen in the next (R199). -/
def cycleEnd (s : State) (core : Nat) : State :=
  let len := cycleLen (s.cluster (core / 8)).clk
  let close := fun (s : State) => s.modCore core fun c => { c with slot := 0, phase := c.phase + len }
  if (s.core core).paused then
    close ((s.blockWarps core).foldl (fun s w => if w.fsuccOld.isSome then s.setWarp w.key { w with fsuccOld := none } else s) s)
  else
    let able := ableWarps s core
    let ps := (s.blockWarps core).map fun w => (w.key, agePaths s w)
    let s1 := ps.foldl (fun s e => s.modWarp e.1 fun w => countWarp able e.2 w) s
    let s1 := markWaits { (countCore s1 core) with able := able, ableCore := core } core able
    close { s1 with due := s1.due ++ cycleRows s s1 core able }

/-- A new cycle of the cluster begins: the requests of the cycles before are in the queue, and what was vacated before may be evicted
(R165). -/
def openCycle (s : State) (cl : Nat) : State :=
  let c := s.cluster cl
  if ((c.queue.any LReq.fresh) || c.leases.vals.any Lease.vacNow) && s.betweenCycles cl then
    s.setCluster cl { c with
      queue := c.queue.map fun r => { r with fresh := false }
      leases := c.leases.mapVals fun _ l => { l with vacNow := false } }
  else s
/-- One action of a core: a slot's turn, the stall sample, which shows the cycle as its turns leave it, the forced transfers, or the
end of the cycle. -/
def coreAct (s : State) (core : Nat) : Out :=
  let k := (s.core core).slot
  if k < 4 then slotTurn (if k = 0 then openCycle s (core / 8) else s) core k
  else if k = 4 && sampleDue s core then .next ((s.modCore core fun c => { c with slot := 5 }).post .stallSample { core := core })
  else if k < 6 then forcedTurn s core
  else .next (cycleEnd s core)

end Sys2Proof.Machine
end

