-- ==== Sys2Proof/Machine/Schedule.lean ====
section
/-! DEFINITION. What the machine does of itself, in a fixed order where the spec leaves the order open (log 5): rows that are due, the core whose turn it is, and outstanding operations before chain time moves. -/
namespace Sys2Proof.Machine

/-! ## Rows that are due -/

/-- R89: a watchdog is up, and the cycle in which the operation could still be served has ended on every core of the cluster. -/
def watchdogDue (s : State) (w : Warp) : Bool := watchdogUp w && s.betweenCycles w.cluster
/-- Stops for pre-emption of warps that hold no baton or are stopped already (R52), and the tile-wait watchdog (R89). A holder that may
issue stops in its slot's turn (R42). -/
def dueWarp (s : State) : Option Happening :=
  s.allWarps.findSome? fun w =>
    if w.stopReq && !w.smode && w.life == .live && stopsAtOnce w then some ⟨.preemptStop, { warp := w.key }⟩
    else if watchdogDue s w then some ⟨.tileWaitWatchdog, { warp := w.key }⟩
    else none
/-- Handler entry, forced save, grants of reservations, release waves, block retirement (R348, R350, R61, R367, R22). -/
def dueCore (s : State) : Option Happening :=
  s.cores.findSome? fun e =>
    if forcedDue s e.1 then some ⟨.forcedSave, { core := e.1 }⟩
    else if handlerDue s e.1 then some ⟨.preemptHandlerEntry, { core := e.1 }⟩
    else if grantDue s e.1 then some ⟨.reservationGrant, { core := e.1 }⟩
    else if !(openWaiters s e.1).isEmpty && e.2.waveT == 0 then some ⟨.syncReleaseWave, { core := e.1 }⟩
    else if retireDue s e.1 then some ⟨.blockRetire, { core := e.1 }⟩
    else none
/-- Quotas and slices (R393, R366, R352). -/
def duePart (s : State) : Option Happening :=
  s.parts.findSome? fun e =>
    if !(quotaNew s e.1).isEmpty || !(quotaLifted s e.1).isEmpty then some ⟨.quotaExhausted, { part := e.1 }⟩
    else if sliceReady s e.1 then some ⟨.sliceStart, { part := e.1 }⟩
    else none
/-- A lease of a cluster: awake, vacated, or evicted and still running at the end of the bound (R160, R161, R163). -/
def dueLease (s : State) (cl : Nat) (c : Cluster) : Option Happening :=
  c.leases.findSome? fun e =>
    if e.2.st == .waking && decide (e.2.wakeAt ≤ s.now) then some ⟨.leaseWake, { cluster := cl, key := e.1 }⟩
    else if vacateDue s cl e.1 e.2 then some ⟨.vacateComplete, { cluster := cl, key := e.1 }⟩
    else if stopOverdue s e.2 then some ⟨.engineStop, { cluster := cl, key := e.1 }⟩
    else none
/-- A tile name of a cluster: drained, or left by its definer (R84, R90). -/
def dueTile (cl : Nat) (c : Cluster) : Option Happening :=
  c.tiles.findSome? fun e =>
    if e.2.st == .draining && e.2.reads == 0 then some ⟨.tileDrainComplete, { cluster := cl, key := e.1 }⟩
    else if e.2.st == .filling && e.2.orphan && e.2.writes == 0 then some ⟨.definerVoid, { cluster := cl, key := e.1 }⟩
    else none
/-- Something waits for a grant, or for the decision that comes after it. -/
def grantNow (s : State) (cl : Nat) : Bool := ((nextGrant s cl).isSome && !journalFull s) || (tryDue s cl).isSome
/-- The lease controller of a cluster with a LEASET to decide: stops, evictions, grants, and then the LEASET (R165). It comes before the
rows of the next cycle. -/
def dueTry (s : State) : Option Happening :=
  (s.clusters.filter fun e => (tryDue s e.1).isSome).findSome? fun e =>
    match dueLease s e.1 e.2 with
    | some h => some h
    | none => some ⟨if (evictFor s e.1).isSome then .leaseEviction else .leaseGrant, { cluster := e.1 }⟩
/-- Clusters: leases, tiles, evictions before grants (R165), retention, clocks, block starts. -/
def dueCluster (s : State) : Option Happening :=
  s.clusters.findSome? fun e =>
    match dueLease s e.1 e.2, dueTile e.1 e.2 with
    | some h, _ => some h
    | none, some h => some h
    | none, none =>
      if (s.newDue e.1).isSome && s.betweenCycles e.1 then some ⟨.tileDrainComplete, { cluster := e.1, key := State.noName }⟩
      else if (evictFor s e.1).isSome then some ⟨.leaseEviction, { cluster := e.1 }⟩
      else if grantNow s e.1 then some ⟨.leaseGrant, { cluster := e.1 }⟩
      else if e.2.retained.any fun r => !kept s e.2 r then some ⟨.retentionExpiry, { cluster := e.1 }⟩
      else if clockDue s e.1 then some ⟨.clockSwitch, { cluster := e.1 }⟩
      else if blockDue s e.1 then some ⟨.blockStart, { cluster := e.1 }⟩
      else none
/-- Rails (R369). -/
def dueRail (s : State) : Option Happening :=
  [0, 1, 2].findSome? fun k =>
    if railStepDue s k then some ⟨.railStep, { sel := k }⟩
    else if (rail s k).hold.any fun h => decide (h ≤ s.now) then some ⟨.railHoldEnd, { sel := k }⟩
    else none
/-- Launches from record to end (R355 to R362). -/
def dueLaunch (s : State) : Option Happening :=
  match s.launches.findSome? fun e =>
      if e.2.stage == .waiting && dependence s e.2 != .low then some (⟨.waitaddrPoll, { lid := e.2.lid }⟩ : Happening)
      else if e.2.stage == .ready && allPlaced s e.2 && overlapOk s e.2 then some ⟨.gangPlacement, {}⟩
      else if endDue s e.2 then some ⟨.launchEnd, { lid := e.2.lid }⟩
      else if signalSeen s e.2 then some ⟨.launchDoneCount, { lid := e.2.lid }⟩
      else none with
  | some h => some h
  | none =>
    match if s.launches.isEmpty then none else [0, 1, 2, 3, 4, 5].find? fun d => (placeable s d).isSome with
    | some d => some ⟨.gangPlacement, { unit := d }⟩
    | none => (s.io.queues.find? fun e => recordDue s e.1).map fun e => ⟨.launchRecordRead, { queue := e.1 }⟩
/-- A slice that is over (R366): it comes after the launches that can be placed in the same instant. -/
def dueSlice (s : State) : Option Happening :=
  (s.parts.find? fun e => sliceOver s e.1).map fun e => ⟨.sliceEnd, { part := e.1 }⟩
/-- The end of a checkpoint or restore, and of the 1 ms window (R419, R421, R392). -/
def dueIo (s : State) : Option Happening :=
  if ckQuiet s then some ⟨if s.io.ck.restoring then .restoreEnd else .checkpointEnd, {}⟩
  else if s.io.ready && windowDue s then some ⟨.furlongWindow, {}⟩
  else none
/-- The first row that is due. -/
def dueRow (s : State) : Option Happening :=
  [dueTry, dueWarp, dueCore, duePart, dueCluster, dueRail, dueLaunch, dueSlice, dueIo].findSome? fun f => f s

/-! ## Turns and time -/

/-- A core that runs: it holds a block and its cluster's clock is not gated. -/
def running (s : State) (e : Nat × Core) : Bool := e.2.block.isSome && !e.2.away && !(s.cluster (e.1 / 8)).gate
/-- 2 ns, the tick of chain time, in 1/84 ns. -/
def tickLen : Nat := 168
/-- A core without a block whose stall samples are armed counts its cycles (R404). -/
def samplesIdle (s : State) (e : Nat × Core) : Bool :=
  !(e.2.block.isSome && !e.2.away) && sampled s e.1 && !(s.cluster (e.1 / 8)).gate
/-- The running core whose local time is least and still inside the tick; the lower index between equals. -/
def nextCore (s : State) : Option Nat :=
  ((s.cores.filter fun e => (running s e || samplesIdle s e) && decide (e.2.phase < tickLen)).foldl (fun b e =>
    match b with
    | none => some (e.1, e.2.phase)
    | some x => if e.2.phase < x.2 then some (e.1, e.2.phase) else b) (none : Option (Nat × Nat))).map Prod.fst

/-- WRITE_APPLY for each access that is not applied. -/
def writes (o : Op) (a : Arg) : List Happening :=
  ((List.range o.accs.length).filter fun i => (o.accs[i]?).any fun x => !x.applied).map fun i => ⟨.writeApply, { a with unit := i }⟩
/-- The rows that could bring an operation of a warp forward. -/
def opRows (w : Warp) (o : Op) : List Happening :=
  let a : Arg := { warp := w.key, op := o.id }
  match o.k with
  | .twrite _ _ | .tload _ => [⟨.tileWriteAccept, a⟩]
  | .tread _ | .scacc _ _ _ _ _ _ _ | .tstore _ _ _ => [⟨.tileReadComplete, a⟩]
  | .publish _ _ => [⟨.publishVersionWritten, a⟩]
  | .aszrec _ _ => [⟨.writeComplete, a⟩]
  | .cmd | .host _ => []
  | .put | .land _ _ => writes o a ++ [⟨.writeComplete, a⟩]
  | .load _ _ | .ldres => [⟨.loadComplete, a⟩]
  | .stream _ => [⟨.streamElementsArrive, a⟩]
  | .store | .stcon _ _ | .bar _ | .rmw _ _ => writes o a ++ [⟨.writeComplete, a⟩, ⟨.loadComplete, a⟩]
/-- A collective that takes part with ranks of other packages: their data come from outside. -/
def outside (s : State) (l : Lease) : Bool :=
  l.cls == .cl && (s.launch l.lid).ranks.any fun r => r.pkg != s.io.ident.furid
def leaseRows (s : State) (cl : Nat) (c : Cluster) : List Happening :=
  (if c.lost.isEmpty then [] else [⟨.engineStop, { cluster := cl, key := 2 ^ 64 }⟩]) ++ c.leases.flatMap fun e =>
    if e.2.st == .evicted then [⟨.engineStop, { cluster := cl, key := e.1 }⟩]
    else if e.2.queue.head?.all fun q => outside s e.2 && !q.aborted then []
    else [⟨.engineCommandComplete, { cluster := cl, key := e.1 }⟩]
/-- Rows of outstanding operations, the oldest of each warp first, and of the other agents' writes. -/
def openRows (s : State) : List Happening :=
  s.ext.map (fun o => (⟨.writeApply, { warp := agentKey, op := o.id }⟩ : Happening)) ++ (s.allWarps.flatMap fun w => (w.ops.filter fun o => !o.done).flatMap (opRows w)) ++ s.clusters.flatMap fun e => leaseRows s e.1 e.2
/-- A row that changes something now. -/
def progress (s : State) (h : Happening) : Bool :=
  match exec h.row { s with arg := h.arg } with
  | .next t => decide ({ t with arg := s.arg } ≠ s)
  | _ => false
/-- Before a tick: syncs whose fence has come to hold arrive, trace records that waited go to their ring, FIREWALL records whose time is
over are appended, and the rails follow floor and votes (R256, R407, R396, R369). -/
def settle (s : State) : State :=
  let s := railsFollow (violationsOver (flushTrace s.io.perch.trHeld (lateArrivals s)))
  { s with cores := s.cores.mapVals fun _ c => { c with phase := c.phase - tickLen } }

/-! ## The agenda (log 5) -/

/-- A write of the host that it has sent and that has not been applied (R130). -/
def hostWriteOpen (s : State) : Bool := s.ext.any fun o => o.k == .host none
/-- A doorbell is accepted once what its writer wrote before has been applied (R355); the other inputs are taken when they come. -/
def inputReady (s : State) (h : Happening) : Bool :=
  match h.row with
  | .qtailDoorbell => !hostWriteOpen s
  | .registerWrite => !(isDoorbell h.arg.addr && hostWriteOpen s)
  | _ => true

/-! ## Memory errors (R345) -/

/-- A word that a memory reads with an uncorrectable error is poisoned from then on. -/
def strike (s : State) (e : ErrAt) : State :=
  match e with
  | .line l => if s.memPoison.contains l then s else { s with memPoison := s.memPoison ++ [l] }
  | .spad c u => s.modCore c fun k => if k.spPoison.contains u then k else { k with spPoison := k.spPoison ++ [u] }
  | .tile cl n u =>
    s.modTile cl n fun t => if t.st == .free || t.void || t.poison.contains u then t else { t with poison := t.poison ++ [u] }
  -- a pool word holds two lanes; the poison arose in the pool itself: TADDR is 0
  | .vreg k r i => s.modWarp k fun w => w.poisonV r (([2 * i, 2 * i + 1].filter fun L => decide (L < w.W)).map fun L => (L, 0))
  | .sreg k r => s.modWarp k fun w => w.poisonS r 0
  -- R410: it changes no value
  | .soft cl =>
    match s.parts.find? fun p => p.2.dies.contains (cl / 8) with
    | some p => s.countOn (4 * p.1 + p.2.cur) cl 12
    | none => s

/-! ## An instruction placed for fetch -/

/-- A machine in which core 0 holds one block of one warp that is about to run 8 bytes at 0x200008: partition 0 with die 0, one
1 GiB page for all of code and data, the frame of the code assigned, a header that admits dictionary codes and asks for every register, a reservation of every register
and a dictionary of 1,024 NOPs. -/
def stagePart (p : Part) : Part := { p with dies := [0], domains := [0], keydom := 0, ptbase := 0, tlb := [], vdevs := [0], cur := 0, ending := false }
def stageHdr : Word := 0xA004FFFE00000300#64
def nopWord : Word := 0x8000000000000000#64
def stageWarp (smode : Bool) : Warp :=
  { real := true, id := { dictcount := 1024 }, baton := some 0, resV := 256, resS := 127, smode := smode, active := smode,
    p := { pc := 0x200008, atHdr := false, hdr := ⟨0x200000, stageHdr⟩, lanes := allLanes 16, exec := allLanes 16 } }
def stageCore (c : Core) : Core :=
  { c with block := some { nwarps := 1, batons := 1 }, dict := List.replicate 1024 nopWord, dictFor := some (0, 0), slot := 0, away := false, pre := none }
/-- The page table (a pointer at 0, a leaf at 0x100000) and the parcels, each little-endian, the first at the lowest address. -/
def stageMem (m : Memory) (ps : List Nat) : Memory :=
  (ps.foldl (fun (x : Memory × Nat) p => (x.1.writeN x.2 2 p, x.2 + 2))
    ((((m.writeN 0 8 0x100001).writeN 0x100000 8 0x3C3).writeN 0x200000 8 0), 0x200008)).1

end Sys2Proof.Machine
end

