-- ==== Sys2Proof/Machine/Step.lean ====
section
/-! DEFINITION. One step of the machine: what has been posted, then the agenda, then what the machine does of itself. -/
namespace Sys2Proof.Machine

/-- A row of the table with its operands. -/
def happen (s : State) (h : Happening) : Out := exec h.row { s with arg := h.arg }
/-- The machine's own next action: a row that is due, a core's turn, an outstanding operation, or a tick of chain time. -/
def machine (s : State) : Out :=
  match dueRow s with
  | some h => happen s h
  | none => match nextCore s with
    | some c => coreAct s c
    | none => match (openRows s).find? (progress s) with
      | some h => happen s h
      | none => exec .chainTimeTick (settle s)
/-- One entry of the agenda. -/
def choose (s : State) (c : Choice) : Out :=
  match c with
  | .go => machine s
  | .turn core => coreAct s core
  | .serve w o i sel => .next (serveNow s w o i (sel == 1))
  | .arrive w o i => .next (arriveAcc s w o i)
  | .input h => happen s h
  | .error e => .next (strike s e)
def step (s : State) : Out :=
  match s.due with
  | h :: l => happen { s with due := l } h
  | [] => match s.agenda with
    | [] => machine s
    | .input h :: l => if inputReady s h then choose { s with agenda := l } (.input h) else machine s
    | c :: l => choose { s with agenda := l } c

/-- The state with an instruction where the next step fetches (log 21): the staging of Schedule, with slot 0 of core 0
given the turn. Privileged words stand in S mode. -/
def State.withFetchWord (s : State) (nbits w : Nat) : State :=
  let v := w % 2 ^ nbits
  let ps := [v % 2 ^ 16, v / 2 ^ 16 % 2 ^ 16, v / 2 ^ 32 % 2 ^ 16, v / 2 ^ 48 % 2 ^ 16]
  let word : Word := BitVec.ofNat 64 (ps.foldl (fun a p => a * 2 ^ 16 + p) 0)
  { s with
    w := stageWarp (isPriv word), warps := [], cores := s.cores.put 0 (stageCore (s.core 0)), parts := s.parts.put 0 (stagePart (s.part 0)),
    mem := stageMem s.mem ps, memPoison := [], due := [], agenda := [.turn 0],
    io := { s.io with
      frames := s.io.frames.put 1 (0, 0), lineDom := [], perch := {} } }

end Sys2Proof.Machine
end

