-- ==== Sys2Proof/Safety.lean ====
section
/-! DEFINITION. What counts as a safe run, in the terms claims use: no step stops, memory keeps its canonical form, and no warp and no launch has ended by a trap. -/
namespace Sys2Proof.Machine

/-- The invariant of memory: the canonical form, so that equal memories are equal data (log 8). -/
def State.memOk (s : State) : Prop := Memory.wf s.mem

/-- No warp is FAULTED (R40, R43), and no launch has ended by policy ABORT or by a double fault (R331, R344). -/
def State.clean (s : State) : Prop :=
  (∀ w ∈ s.allWarps, w.life ≠ .faulted) ∧ ∀ l ∈ s.launches.vals, l.aborted = false ∧ l.double = false

/-- A run of n steps that answers a next state each time. -/
def State.runs (s : State) (n : Nat) (t : State) : Prop := Host.Core.run Sys2Proof.core n s = .next t

/-- A safe run of n steps: after each of its steps memory is canonical and nothing has ended by a trap. -/
def State.safeFor (s : State) (n : Nat) : Prop := ∀ k ≤ n, ∃ t, s.runs k t ∧ t.memOk ∧ t.clean

/-- The conditions under which an instruction with these operands issues (R34): no port is named in the wrong direction (R72), no
source and no PASS status is waited for (R242, R30), no counter it raises is full (R76), the elements of its read ports have
arrived (R70), no source is poisoned (R345), and what it maps fits its reservation (R60). -/
def Issues (u : Use) (s : State) : Prop :=
  wrongWay s.w u = false ∧ regWait s.w u = false ∧ counterFull s.w u = false ∧
  ((readPorts s.w u).isEmpty || s.w.p.stage.any Stage.arrived) = true ∧
  poisonTrap s.w u = none ∧ (freeUse s.w u).overLive (liveDst s.w u) u.sdst = false
/-- They hold, and no older operation is still to write a destination: what is said of the operations outstanding is then that they
stay (log 7). -/
def Ready (u : Use) (s : State) : Prop := Issues u s ∧ writesPending s.w u = false

end Sys2Proof.Machine
end

