-- ==== Sys2Proof/WellFormed.lean ====
section
/-! DEFINITION. Which terms of Instr an encoding exists for (spec/08 R178 to R190 and the entries): values a field's type admits and its entry does not. Happenings have no encoding and no such limits. -/
namespace Sys2Proof

/-- R231, R262, R269: plane counts are 2 to 8. -/
def cvtOk : CvtTy → Bool
  | .pi k => kOk k
  | _ => true
def kindOk : TKind → Bool
  | .pi k => kOk k
  | _ => true
def afmtOk : AFmt → Bool
  | .pi j => kOk j
  | _ => true
/-- R265: TLOAD's planes: 2 ≤ J ≤ M ≤ 8. -/
def tloadOk : TLoadForm → Bool
  | .row => true
  | .plane m j => decide (2 ≤ j.toNat) && decide (j.toNat ≤ m.toNat) && decide (m.toNat ≤ 8)
/-- R182: an index names one of v0 to v254; 255 stands for none. -/
def memOk (m : MemV) : Bool := m.idx != some 255
/-- R242: a pair's second register exists. -/
def pairOk (d : VIdx) (w : Wid) : Bool := !(w == .w64 && d == 255)
/-- R248: the registers an atomic takes exist. -/
def atomOk (d : VIdx) (w64 cas : Bool) : Bool :=
  decide (d.toNat ≤ if cas then (if w64 then 252 else 254) else if w64 then 254 else 255)
/-- R260: H is never s0; a run of registers ends within the field's reach. -/
def hOk (h : HIdx) : Bool := h != 0
def hRunOk (h : HIdx) : Bool := h != 0 && h != 63
/-- R276: INV's registers are apart. -/
def invOk (o : InvOps) : Bool :=
  o.x != 255 && o.y != o.x && o.y != o.x + 1 && o.tgt != o.x && o.tgt != o.x + 1 && o.y != o.tgt && !(o.mode1 && o.tol != 0)

/-- Well-formed: what an encoding of the spec can say. A first parcel in group 3 is a dictionary code (R173). -/
def wellFormed (i : Instr) : Bool :=
  match i with
  | .cvt _ _ _ _ dst src _ => cvtOk dst && cvtOk src
  | .pack _ _ _ _ _ t hi r => (!hi || t.byte) && (t.float || r == .dflt)
  | .unpack _ _ _ _ t n => t.byte || !n.getLsbD 1
  | .ld _ d m w => memOk m && pairOk d w
  | .st _ d m w => memOk m && pairOk d w && !w.signed
  | .stsc _ _ _ w => !w.signed
  | .pref _ m _ => memOk m
  | .atomAdd _ d m w | .atomSub _ d m w | .atomAnd _ d m w | .atomOr _ d m w | .atomXor _ d m w | .atomMin _ d m w | .atomMax _ d m w
  | .atomMinn _ d m w | .atomMaxn _ d m w | .atomXchg _ d m w => memOk m && atomOk d w false
  | .atomCas _ d m w => memOk m && atomOk d w true
  | .redAdd _ d m w | .redSub _ d m w | .redAnd _ d m w | .redOr _ d m w | .redXor _ d m w | .redMin _ d m w | .redMax _ d m w
  | .redMinn _ d m w | .redMaxn _ d m w => memOk m && atomOk d w false
  | .fatomAdd _ _ m | .fatomMin _ _ m | .fatomMax _ _ m | .fredAdd _ _ m | .fredMin _ _ m | .fredMax _ _ m => memOk m
  | .tdef _ _ k => kindOk k
  | .tnew _ h k => hOk h && kindOk k
  | .tstat _ h _ => hOk h
  | .tload _ _ h _ f => hRunOk h && tloadOk f
  | .tstore _ _ h _ _ => hRunOk h
  | .lease _ h k sh | .leaset _ h k sh => hOk h && (!sh || k == .mx)
  | .vacate _ h | .lstat _ _ h => hOk h
  | .mxloadb _ h _ _ _ _ | .mxdrain _ _ h _ _ _ _ | .mxzero _ h _ | .cvshape _ h | .dmcopy _ h _ | .dmfill _ h _ _
  | .clreduce _ h _ _ _ _ | .clgather _ h _ _ | .clbcast _ h _ _ => hOk h
  | .mxrun _ h _ _ _ f => hOk h && afmtOk f
  | .mxconv _ h _ f _ => hOk h && (match f with
    | .pi _ => false
    | _ => true)
  | .dmgather _ h _ n _ | .dmscatter _ h _ n _ => hOk h && decide (n.toNat ≤ 9)
  | .passx _ _ _ b _ => decide (b.toNat ≤ 124)
  | .csrwr _ n _ => n != csrInbox && n != csrInvstate
  | .wrpr _ n _ => n != prVote
  | .waitc _ cls _ => cls != 0
  | .inv _ o => invOk o
  | .unassignedOpcode w => unassigned w && wG w != 3
  | _ => true

end Sys2Proof
end

