-- ==== Sys2Proof/Certificates/Slice0/Obligations.lean ====
section
/-! DEFINITION. Statements for the provers: what the spec's numbered rules say of the machine, as propositions about the model. -/

namespace Sys2Proof.Stmt
open Sys2Proof.Machine

/-! ## What statements speak of -/

/-- An instruction changes the acting warp, energy and event counts of virtual devices and the model's own counter of free values;
every other part of the machine stays: memory, tiles, leases, other warps, cores, partitions, the IO die. -/
def OnlyWarp (s t : State) : Prop := t = { s with w := t.w, vdevs := t.vdevs, freeCtr := t.freeCtr }
/-- The warp has changed in its scalar registers, and its program counter is past the instruction. -/
def ScalarsOnly (s t : State) : Prop :=
  OnlyWarp s t ∧ t.w = { s.w with sregs := t.w.sregs, resS := t.w.resS }.advance s.ilen
/-- The warp has changed in its vector registers and in what its stream ports hold ready; its slot is busy for its beats (R20). -/
def VectorsOnly (s t : State) : Prop :=
  OnlyWarp s t ∧
  t.w = { s.w with vregs := t.w.vregs, resV := t.w.resV, sregs := t.w.sregs, resS := t.w.resS, busy := s.W / 16,
                   p := { s.w.p with stage := t.w.p.stage } }.advance s.ilen

/-- A register is no last-use source of the list. -/
def KeptS (l : List (SIdx × Bool)) (r : SIdx) : Prop := ∀ x ∈ l, x.2 = true → x.1 ≠ r
def KeptV (l : List (VIdx × Bool)) (r : VIdx) : Prop := ∀ x ∈ l, x.2 = true → x.1 ≠ r
/-- R57: a last-use source that the instruction does not write is unmapped afterwards; s0 and the inbox registers never are. -/
def FreedS (l : List (SIdx × Bool)) (ds : List SIdx) (w : Warp) : Prop :=
  ∀ x ∈ l, x.2 = true → x.1 ∉ ds → x.1 ≠ 0 → inboxS x.1.toNat = false → w.sregs.has x.1.toNat = false
def FreedV (l : List (VIdx × Bool)) (ds : List VIdx) (w : Warp) : Prop :=
  ∀ x ∈ l, x.2 = true → x.1 ∉ ds → inboxV x.1.toNat = false → w.portOf x.1 = none → w.vregs.has x.1.toNat = false

/-! ## Scalars and masks (spec/09) -/

/-- What a scalar instruction reads, writes and stores there. -/
structure SForm where
  srcs : List (SIdx × Bool)
  d : SIdx
  v : Word

/-- Quotient and remainder of R195, in integers. -/
def quotS (u : Bool) (x y : Word) : Word :=
  if y = 0 then BitVec.allOnes 64
  else if u then BitVec.ofNat 64 (x.toNat / y.toNat) else BitVec.ofInt 64 (x.toInt.tdiv y.toInt)
def remdS (u : Bool) (x y : Word) : Word :=
  if y = 0 then x
  else if u then BitVec.ofNat 64 (x.toNat % y.toNat) else BitVec.ofInt 64 (x.toInt.tmod y.toInt)
/-- The high half of the exact product. -/
def highS (u : Bool) (x y : Word) : Word :=
  if u then BitVec.ofNat 64 (x.toNat * y.toNat / 2 ^ 64) else BitVec.ofInt 64 (x.toInt * y.toInt / 2 ^ 64)
/-- The predicates of R194 as relations between integers. -/
def holds (p : Pred) {n : Nat} (x y : BitVec n) : Prop :=
  match p with
  | .eq => x = y | .ne => x ≠ y
  | .lt => x.toInt < y.toInt | .le => x.toInt ≤ y.toInt | .gt => y.toInt < x.toInt | .ge => y.toInt ≤ x.toInt
  | .ltu => x.toNat < y.toNat | .leu => x.toNat ≤ y.toNat | .gtu => y.toNat < x.toNat | .geu => y.toNat ≤ x.toNat

/-- What every scalar instruction that issues does: value, frees, frame. -/
def ScalarEffect (f : SForm) (i : Instr) (s : State) : Prop :=
  ∃ t, exec i s = .next t ∧ ScalarsOnly s t ∧ t.w.rdS f.d = (if f.d = 0 then 0 else f.v) ∧
    (∀ r, r ≠ f.d → KeptS f.srcs r → t.w.rdS r = s.w.rdS r) ∧ FreedS f.srcs [f.d] t.w

/-- A scalar instruction of given sources, destination and value has its effect wherever it is ready. -/
def ScalarRule (srcs : List (SIdx × Bool)) (d : SIdx) (i : Instr) (v : Warp → Word) : Prop :=
  ∀ s : State, Ready { ssrc := srcs, sdst := [d] } s → ScalarEffect ⟨srcs, d, v s.w⟩ i s
/-- Two scalar sources, in positions A and B. -/
def Scalar2 (k : Ctl → SIdx → SIdx → SIdx → Instr) (f : Word → Word → Word) : Prop :=
  ∀ c d a b, ScalarRule [(a, luA c), (b, luB c)] d (k c d a b) fun w => f (w.rdS a) (w.rdS b)
/-- One scalar source, in position A, and a parameter of the instruction. -/
def Scalar1 {α : Type} (k : Ctl → SIdx → SIdx → α → Instr) (f : α → Word → Word) : Prop :=
  ∀ c d a n, ScalarRule [(a, luA c)] d (k c d a n) fun w => f n (w.rdS a)

end Sys2Proof.Stmt

open Sys2Proof Sys2Proof.Machine Sys2Proof.Stmt

/-- R194, R195: scalar arithmetic of two sources: values, s0 as destination (R55), last-use frees (R57), frame. -/
def Sys2Proof.Stmt.ScalarTwoSources : Prop :=
  Scalar2 .sadd (fun x y => x + y) ∧ Scalar2 .ssub (fun x y => x - y) ∧ Scalar2 .smul (fun x y => x * y) ∧
  (∀ u, Scalar2 (fun c d a b => .smulh c d a b u) (highS u)) ∧
  (∀ u, Scalar2 (fun c d a b => .sdiv c d a b u) (quotS u)) ∧ (∀ u, Scalar2 (fun c d a b => .srem c d a b u) (remdS u)) ∧
  Scalar2 .sand (fun x y => x &&& y) ∧ Scalar2 .sor (fun x y => x ||| y) ∧ Scalar2 .sxor (fun x y => x ^^^ y) ∧
  Scalar2 .sshl (fun x y => x <<< (y.toNat % 64)) ∧ Scalar2 .sshr (fun x y => x >>> (y.toNat % 64)) ∧
  Scalar2 .ssra (fun x y => x.sshiftRight (y.toNat % 64)) ∧
  Scalar2 .smin (fun x y => BitVec.ofInt 64 (min x.toInt y.toInt)) ∧ Scalar2 .smax (fun x y => BitVec.ofInt 64 (max x.toInt y.toInt)) ∧
  Scalar2 .sminn (fun x y => BitVec.ofNat 64 (min x.toNat y.toNat)) ∧ Scalar2 .smaxn (fun x y => BitVec.ofNat 64 (max x.toNat y.toNat)) ∧
  (∀ c d a b cc, ScalarRule [(a, luA c), (b, luB c), (cc, luC c)] d (.ssel c d a b cc) fun w =>
    if w.rdS cc ≠ 0 then w.rdS a else w.rdS b)

/-- R194, R197, R198: scalar moves and immediate forms; SHII keeps bits 31:0 of its destination; MTOS gives a mask zero-extended. -/
def Sys2Proof.Stmt.ScalarImmediates : Prop :=
  (∀ c d a, ScalarRule [(a, luA c)] d (.smov c d a) fun w => w.rdS a) ∧
  Scalar1 .saddi (fun i x => x + i.signExtend 64) ∧ Scalar1 .sandi (fun i x => x &&& i.signExtend 64) ∧
  Scalar1 .sori (fun i x => x ||| i.signExtend 64) ∧ Scalar1 .sxori (fun i x => x ^^^ i.signExtend 64) ∧
  Scalar1 .sshli (fun n x => x <<< n.toNat) ∧ Scalar1 .sshri (fun n x => x >>> n.toNat) ∧
  Scalar1 .ssrai (fun n x => x.sshiftRight n.toNat) ∧
  (∀ c d i, ScalarRule [] d (.smovi c d i) fun _ => i.signExtend 64) ∧
  (∀ c d i, ScalarRule [(d, false)] d (.shii c d i) fun w => i ++ (w.rdS d).setWidth 32) ∧
  (∀ c d a, ScalarRule [] d (.mtos c d a) fun w => w.rdM a &&& allLanes w.W)

/-- R194: comparisons write 1 where the predicate holds of the sources as integers, and 0 otherwise. -/
def Sys2Proof.Stmt.ScalarCompare : Prop :=
  (∀ (c : Ctl) (d a b : SIdx) (p : Pred) (s : State), Ready { ssrc := [(a, luA c), (b, luB c)], sdst := [d] } s →
    ∃ v, ScalarEffect ⟨[(a, luA c), (b, luB c)], d, v⟩ (.scmp c d a b p) s ∧
      (v = 1 ∧ holds p (s.w.rdS a) (s.w.rdS b) ∨ v = 0 ∧ ¬ holds p (s.w.rdS a) (s.w.rdS b))) ∧
  (∀ (c : Ctl) (d a : SIdx) (p : Pred) (n : BitVec 28) (s : State), Ready { ssrc := [(a, luA c)], sdst := [d] } s →
    ∃ v, ScalarEffect ⟨[(a, luA c)], d, v⟩ (.scmpi c d a p n) s ∧
      (v = 1 ∧ holds p (s.w.rdS a) (n.signExtend 64) ∨ v = 0 ∧ ¬ holds p (s.w.rdS a) (n.signExtend 64)))

/-- R194, R198: counting instructions. SCLZ counts the zeros above the highest one, SPOPC and MCNT the ones; MFIRST gives the lowest
one, or 64. -/
def Sys2Proof.Stmt.ScalarCounts : Prop :=
  (∀ (c : Ctl) (d a : SIdx) (s : State), Ready { ssrc := [(a, luA c)], sdst := [d] } s →
    ∃ n : Nat, ScalarEffect ⟨[(a, luA c)], d, BitVec.ofNat 64 n⟩ (.sclz c d a) s ∧ n ≤ 64 ∧
      (∀ k, k < n → (s.w.rdS a).getLsbD (63 - k) = false) ∧ (n < 64 → (s.w.rdS a).getLsbD (63 - n) = true)) ∧
  (∀ (c : Ctl) (d a : SIdx) (s : State), Ready { ssrc := [(a, luA c)], sdst := [d] } s →
    ScalarEffect ⟨[(a, luA c)], d, BitVec.ofNat 64 ((List.range 64).countP fun k => (s.w.rdS a).getLsbD k)⟩ (.spopc c d a) s) ∧
  (∀ (c : Ctl) (d : SIdx) (m : MIdx) (s : State), s.w.W ≤ 64 → Ready { sdst := [d] } s →
    ScalarEffect ⟨[], d, BitVec.ofNat 64 ((List.range s.w.W).countP fun k => (s.w.rdM m).getLsbD k)⟩ (.mcnt c d m) s) ∧
  (∀ (c : Ctl) (d : SIdx) (m : MIdx) (s : State), s.w.W ≤ 64 → Ready { sdst := [d] } s →
    ∃ n : Nat, ScalarEffect ⟨[], d, BitVec.ofNat 64 n⟩ (.mfirst c d m) s ∧
      (n < s.w.W ∧ (s.w.rdM m).getLsbD n = true ∧ (∀ k, k < n → (s.w.rdM m).getLsbD k = false) ∨
       n = 64 ∧ ∀ k, k < s.w.W → (s.w.rdM m).getLsbD k = false))

/-- R196: SBFX extracts bits POS to POS+LEN−1, bits beyond 63 as zeros, with the field's top bit extended by .S; SBFI replaces
those bits of its destination and keeps the others. -/
def Sys2Proof.Stmt.BitFields : Prop :=
  (∀ (c : Ctl) (d a : SIdx) (pos len1 : BitVec 6) (sgn : Bool) (s : State), Ready { ssrc := [(a, luA c)], sdst := [d] } s →
    ∃ v, ScalarEffect ⟨[(a, luA c)], d, v⟩ (.sbfx c d a pos len1 sgn) s ∧
      ∀ k, k < 64 → v.getLsbD k =
        if k ≤ len1.toNat then (s.w.rdS a).getLsbD (pos.toNat + k) else (sgn && (s.w.rdS a).getLsbD (pos.toNat + len1.toNat))) ∧
  (∀ (c : Ctl) (d a : SIdx) (pos len1 : BitVec 6) (s : State), Ready { ssrc := [(a, luA c), (d, false)], sdst := [d] } s →
    ∃ v, ScalarEffect ⟨[(a, luA c), (d, false)], d, v⟩ (.sbfi c d a pos len1) s ∧
      ∀ k, k < 64 → v.getLsbD k =
        if pos.toNat ≤ k ∧ k ≤ pos.toNat + len1.toNat then (s.w.rdS a).getLsbD (k - pos.toNat) else (s.w.rdS d).getLsbD k)

/-- R194 to R198: scalar arithmetic, moves, comparisons, counts and bit fields. -/
def Obligations.ScalarInstructions : Prop := Stmt.ScalarTwoSources ∧ Stmt.ScalarImmediates ∧ Stmt.ScalarCompare ∧ Stmt.ScalarCounts ∧ Stmt.BitFields

namespace Sys2Proof.Stmt
open Sys2Proof.Machine

/-! ## Masks (spec/09) -/

/-- A mask instruction: the destination takes the value over bits W−1:0, m0 within the path's lane set; other masks, scalars that
are no last-use sources and everything else stay. -/
def MaskRule (ss : List (SIdx × Bool)) (d : MIdx) (i : Instr) (v : Warp → Word) : Prop :=
  ∀ s : State, Ready { ssrc := ss } s → ∃ t, exec i s = .next t ∧ OnlyWarp s t ∧
    t.w = { s.w with masks := t.w.masks, sregs := t.w.sregs, resS := t.w.resS, p := { s.w.p with exec := t.w.p.exec } }.advance s.ilen ∧
    t.w.rdM d = (if d = 0 then v s.w &&& allLanes s.w.W &&& s.w.p.lanes else v s.w &&& allLanes s.w.W) ∧
    (∀ m, m ≠ d → t.w.rdM m = s.w.rdM m) ∧ (∀ r, KeptS ss r → t.w.rdS r = s.w.rdS r) ∧ FreedS ss [] t.w

/-! ## Vectors (spec/10) -/

/-- A vector instruction with its sources, destination, lane mask and the value of each lane. -/
structure VForm where
  vs : List (VIdx × Bool)
  ss : List (SIdx × Bool) := []
  d : VIdx
  ms : MIdx
  i : Instr
  v : Warp → Nat → Lane
/-- What it reads and writes. -/
def VForm.use (f : VForm) : Use := { vsrc := f.vs, ssrc := f.ss, vdst := [f.d], ms := f.ms }
/-- The destination is freed as a last-use source before it is written. -/
def VForm.freed (f : VForm) : Bool := f.vs.any (fun x => x.2 && x.1 == f.d) && !inboxV f.d.toNat

/-- Registers, scalars and frees around a vector result in a register. -/
def RegResult (f : VForm) (val : Nat → Lane) (s t : State) : Prop :=
  (∀ L, L < s.w.W → t.w.lane f.d L =
    if (s.w.activeMask f.ms).getLsbD L then val L else if f.freed then 0 else s.w.lane f.d L) ∧
  (∀ r, r ≠ f.d → s.w.portOf r = none → KeptV f.vs r → ∀ L, t.w.lane r L = s.w.lane r L) ∧
  (∀ r, KeptS f.ss r → t.w.rdS r = s.w.rdS r) ∧ FreedV f.vs [f.d] t.w ∧ FreedS f.ss [] t.w

/-- R46, R58: the result stands in the active lanes of the destination; the other lanes keep their values. -/
def RegRule (f : VForm) : Prop :=
  ∀ s : State, s.w.portOf f.d = none → Ready f.use s → ∃ t, exec f.i s = .next t ∧ VectorsOnly s t ∧ RegResult f (f.v s.w) s t

/-- R71: what appending a result to port p does: one store, counted in st, of the low bytes of each lane's element that lies below
COUNT; POS moves on by W, and exhaustion is sticky. -/
def Appended (f : VForm) (val : Nat → Lane) (p : Nat) (accs : List Acc) (s t : State) : Prop :=
  t.w.sd p = { s.w.sd p with pos := (s.w.sd p).pos + BitVec.ofNat 32 s.w.W } ∧
  (∀ q, q ≠ p → t.w.sd q = s.w.sd q) ∧
  t.w.exh.getLsbD p = (s.w.exh.getLsbD p || exhausts s.w.W (s.w.sd p) (s.w.activeMask f.ms)) ∧
  (∀ q, q ≠ p → t.w.exh.getLsbD q = s.w.exh.getLsbD q) ∧
  (accs ≠ [] → ∃ o ∈ t.w.ops, o.id = s.w.opNext ∧ o.cls = .st ∧ o.k = .store ∧ o.done = false ∧
    o.accs = accs.map fun a => { a with data := (val a.lane).toNat % 256 ^ a.n }) ∧
  t.mem = s.mem ∧ (∀ r, s.w.portOf r = none → KeptV f.vs r → ∀ L, t.w.lane r L = s.w.lane r L)

/-- A vector result that goes to a write port whose elements pass the checks of R243. -/
def PortRule (f : VForm) : Prop :=
  ∀ (s : State) (p : Nat) (accs : List Acc), s.w.portOf f.d = some p → Ready f.use s →
    checkElems s s.w .store false (portElems s.w.W (s.w.sd p) (s.w.activeMask f.ms)) = .ok accs →
    ∃ t, exec f.i s = .next t ∧ t.w.p.pc = s.w.p.pc + s.ilen ∧ Appended f (f.v s.w) p accs s t

def V2 (k : Ctl → VIdx → VIdx → VIdx → MIdx → Instr) (R : VForm → Prop) (f : Lane → Lane → Lane) : Prop :=
  ∀ c d a b ms, R { vs := [(a, luA c), (b, luB c)], d := d, ms := ms, i := k c d a b ms, v := fun w L => f (w.lane a L) (w.lane b L) }
def V1 {α : Type} (k : Ctl → VIdx → VIdx → MIdx → α → Instr) (R : VForm → Prop) (f : α → Lane → Lane) : Prop :=
  ∀ c d a ms n, R { vs := [(a, luA c)], d := d, ms := ms, i := k c d a ms n, v := fun w L => f n (w.lane a L) }

/-- R220: saturation to the signed and to the unsigned range of a lane. -/
def clampS (x : Int) : Lane := BitVec.ofInt 32 (max (-2147483648) (min 2147483647 x))
def clampU (x : Int) : Lane := BitVec.ofInt 32 (max 0 (min 4294967295 x))
def addV (m : Sat) (x y : Lane) : Lane :=
  match m with
  | .wrap => x + y | .sat => clampS (x.toInt + y.toInt) | .satu => clampU ((x.toNat : Int) + y.toNat)
def subV (m : Sat) (x y : Lane) : Lane :=
  match m with
  | .wrap => x - y | .sat => clampS (x.toInt - y.toInt) | .satu => clampU ((x.toNat : Int) - y.toNat)
def highV (u : Bool) (x y : Lane) : Lane :=
  if u then BitVec.ofNat 32 (x.toNat * y.toNat / 2 ^ 32) else BitVec.ofInt 32 (x.toInt * y.toInt / 2 ^ 32)

/-- R220, R222: two-source and one-source integer instructions, with a rule for where the result goes. -/
def IntegerVectors (R : VForm → Prop) : Prop :=
  (∀ m, V2 (fun c d a b ms => .vadd c d a b ms m) R (addV m)) ∧ (∀ m, V2 (fun c d a b ms => .vsub c d a b ms m) R (subV m)) ∧
  V2 .vmul R (fun x y => x * y) ∧ (∀ u, V2 (fun c d a b ms => .vmulh c d a b ms u) R (highV u)) ∧
  (∀ c d a b cc ms, R { vs := [(a, luA c), (b, luB c), (cc, luC c)], d := d, ms := ms, i := .vmad c d a b cc ms,
                        v := fun w L => w.lane a L * w.lane b L + w.lane cc L }) ∧
  V2 .vand R (fun x y => x &&& y) ∧ V2 .vor R (fun x y => x ||| y) ∧ V2 .vxor R (fun x y => x ^^^ y) ∧
  V2 .vshl R (fun x y => x <<< (y.toNat % 32)) ∧ V2 .vshr R (fun x y => x >>> (y.toNat % 32)) ∧
  V2 .vsra R (fun x y => x.sshiftRight (y.toNat % 32)) ∧
  V2 .vmin R (fun x y => BitVec.ofInt 32 (min x.toInt y.toInt)) ∧ V2 .vmax R (fun x y => BitVec.ofInt 32 (max x.toInt y.toInt)) ∧
  V2 .vminn R (fun x y => BitVec.ofNat 32 (min x.toNat y.toNat)) ∧ V2 .vmaxn R (fun x y => BitVec.ofNat 32 (max x.toNat y.toNat)) ∧
  V1 .vabs R (fun sat x => if sat then clampS (x.toInt.natAbs : Int) else BitVec.ofInt 32 (x.toInt.natAbs : Int)) ∧
  V1 .vneg R (fun sat x => if sat then clampS (-x.toInt) else BitVec.ofInt 32 (-x.toInt)) ∧
  (∀ c d a ms, R { vs := [(a, luA c)], d := d, ms := ms, i := .vclz c d a ms, v := fun w L => (w.lane a L).clz }) ∧
  (∀ c d a ms, R { vs := [(a, luA c)], d := d, ms := ms, i := .vpopc c d a ms,
                   v := fun w L => BitVec.ofNat 32 ((List.range 32).countP fun k => (w.lane a L).getLsbD k) }) ∧
  (∀ c d a b cc ms, R { vs := [(a, luA c), (b, luB c)], d := d, ms := ms, i := .vsel c d a b cc ms,
                        v := fun w L => if (w.rdM cc).getLsbD L then w.lane a L else w.lane b L }) ∧
  (∀ c d a ms, R { vs := [(a, luA c)], d := d, ms := ms, i := .vmov c (.vv d a) ms, v := fun w L => w.lane a L }) ∧
  (∀ c d a ms, R { vs := [], d := d, ms := ms, i := .vmov c (.vb d a) ms, v := fun w L => w.brkLane a L }) ∧
  (∀ c d ms, R { vs := [], d := d, ms := ms, i := .vlane c d ms, v := fun _ L => BitVec.ofNat 32 L })

/-- R223: the immediate forms, with the immediate sign-extended to a lane. -/
def ImmediateVectors (R : VForm → Prop) : Prop :=
  V1 .vaddi R (fun i x => x + i.signExtend 32) ∧ V1 .vandi R (fun i x => x &&& i.signExtend 32) ∧
  V1 .vori R (fun i x => x ||| i.signExtend 32) ∧ V1 .vxori R (fun i x => x ^^^ i.signExtend 32) ∧
  V1 .vshli R (fun n x => x <<< n.toNat) ∧ V1 .vshri R (fun n x => x >>> n.toNat) ∧ V1 .vsrai R (fun n x => x.sshiftRight n.toNat) ∧
  (∀ c d ms i, R { vs := [], d := d, ms := ms, i := .vmovi c d ms i, v := fun _ _ => i.signExtend 32 }) ∧
  (∀ c d a ms, R { vs := [], ss := [(a, luA c)], d := d, ms := ms, i := .vfroms c d a ms, v := fun w _ => (w.rdS a).setWidth 32 })

/-- R227: FABS, FNEG and FCLASS raise no flag. -/
def PlainFloats (R : VForm → Prop) : Prop :=
  (∀ c d a ms, R { vs := [(a, luA c)], d := d, ms := ms, i := .fabs c d a ms, v := fun w L => w.lane a L &&& 0x7FFFFFFF }) ∧
  (∀ c d a ms, R { vs := [(a, luA c)], d := d, ms := ms, i := .fneg c d a ms, v := fun w L => w.lane a L ^^^ 0x80000000 }) ∧
  (∀ c d a ms, R { vs := [(a, luA c)], d := d, ms := ms, i := .fclass c d a ms,
                   v := fun w L => BitVec.ofNat 32 (fclass (w.lane a L).toNat) })

/-- A comparison of lanes: bit L of the mask becomes the predicate in active lanes and keeps its value in the others; with no
active lane nothing is written. m0 stays within the path's lane set. -/
def CompareRule (vs : List (VIdx × Bool)) (d : MIdx) (ms : MIdx) (i : Instr) (P : Warp → Nat → Prop) : Prop :=
  ∀ s : State, Ready { vsrc := vs, ms := ms } s → ∃ t, exec i s = .next t ∧ OnlyWarp s t ∧
    (∀ L, L < s.w.W → L < 64 → ((t.w.rdM d).getLsbD L = true ↔
      if s.w.activeMask ms = 0 then (s.w.rdM d).getLsbD L = true
      else (if (s.w.activeMask ms).getLsbD L then P s.w L else (s.w.rdM d).getLsbD L = true) ∧ (d = 0 → s.w.p.lanes.getLsbD L = true))) ∧
    (∀ m, m ≠ d → t.w.rdM m = s.w.rdM m) ∧
    (∀ r, s.w.portOf r = none → KeptV vs r → ∀ L, t.w.lane r L = s.w.lane r L) ∧ FreedV vs [] t.w ∧
    t.w.sregs = s.w.sregs ∧ t.w.fpstat = s.w.fpstat ∧ t.w.p.pc = s.w.p.pc + s.ilen ∧ t.w.ops = s.w.ops

end Sys2Proof.Stmt

/-- R198: mask instructions; MNOT is taken over bits W−1:0 by the width of the destination. -/
def Obligations.MaskInstructions : Prop :=
  (∀ c d a b, MaskRule [] d (.mand c d a b) fun w => w.rdM a &&& w.rdM b) ∧
  (∀ c d a b, MaskRule [] d (.mor c d a b) fun w => w.rdM a ||| w.rdM b) ∧
  (∀ c d a b, MaskRule [] d (.mxor c d a b) fun w => w.rdM a ^^^ w.rdM b) ∧
  (∀ c d a b, MaskRule [] d (.mandn c d a b) fun w => w.rdM a &&& ~~~ w.rdM b) ∧
  (∀ c d a, MaskRule [] d (.mnot c d a) fun w => ~~~ w.rdM a) ∧ (∀ c d a, MaskRule [] d (.mmov c d a) fun w => w.rdM a) ∧
  (∀ c d a, MaskRule [(a, luA c)] d (.mfroms c d a) fun w => w.rdS a)

/-- R220, R222: integer vector instructions with a register destination. -/
def Sys2Proof.Stmt.IntegerVectorResults : Prop := IntegerVectors RegRule
/-- R223, R227, R238: immediate forms, VFROMS and the float instructions that raise no flag, with a register destination. -/
def Sys2Proof.Stmt.ImmediateVectorResults : Prop := ImmediateVectors RegRule ∧ PlainFloats RegRule
/-- R71: the same instructions with a write port as destination. -/
def Obligations.VectorResultsToPorts : Prop := IntegerVectors PortRule ∧ ImmediateVectors PortRule ∧ PlainFloats PortRule

/-- R220 to R223: the integer vector instructions, register and immediate forms. -/
def Obligations.IntegerVectorInstructions : Prop := Stmt.IntegerVectorResults ∧ Stmt.ImmediateVectorResults

/-- R221, R223: comparisons to masks. -/
def Sys2Proof.Stmt.VectorCompares : Prop :=
  (∀ c d a b ms p, CompareRule [(a, luA c), (b, luB c)] d ms (.vcmp c d a b ms p) fun w L => holds p (w.lane a L) (w.lane b L)) ∧
  (∀ c d a ms p n, CompareRule [(a, luA c)] d ms (.vcmpi c d a ms p n) fun w L => holds p (w.lane a L) (n.signExtend 32))

/-- R222: VMOV to a bracket register writes its active lanes; the other brackets stay. -/
def Sys2Proof.Stmt.BracketMove : Prop :=
  ∀ (c : Ctl) (d : BIdx) (a : VIdx) (ms : MIdx) (s : State), Ready { vsrc := [(a, luA c)], ms := ms } s →
    ∃ t, exec (.vmov c (.bv d a) ms) s = .next t ∧ OnlyWarp s t ∧
      (∀ L, L < s.w.W → t.w.brkLane d L = if (s.w.activeMask ms).getLsbD L then s.w.lane a L else s.w.brkLane d L) ∧
      (∀ b, b ≠ d → ∀ L, t.w.brkLane b L = s.w.brkLane b L) ∧
      (∀ r, s.w.portOf r = none → KeptV [(a, luA c)] r → ∀ L, t.w.lane r L = s.w.lane r L) ∧ FreedV [(a, luA c)] [] t.w ∧
      t.w.sregs = s.w.sregs ∧ t.w.masks = s.w.masks ∧ t.w.p.exec = s.w.p.exec ∧ t.w.p.pc = s.w.p.pc + s.ilen

/-- R221, R222, R225: vector comparisons into masks, and the bracket registers. -/
def Obligations.ComparesAndBrackets : Prop := Stmt.VectorCompares ∧ Stmt.BracketMove

namespace Sys2Proof.Stmt
open Sys2Proof.Machine

/-! ## Floats (spec/05, spec/10) -/

/-- A float instruction: sources, destination, lane mask, and the value and flags of each lane. -/
structure FForm where
  vs : List (VIdx × Bool)
  d : VIdx
  ms : MIdx
  i : Instr
  v : Warp → Nat → Lane × Flags
def FForm.form (f : FForm) : VForm := { vs := f.vs, d := f.d, ms := f.ms, i := f.i, v := fun w L => (f.v w L).1 }
/-- The five flags of the instruction: those its active lanes raise, ORed. -/
def FForm.Raises (f : FForm) (w : Warp) (k : Nat) : Prop := ∃ L, L < w.W ∧ (w.activeMask f.ms).getLsbD L = true ∧ (f.v w L).2.getLsbD k = true
/-- Some active lane raises a flag whose enable is set in TRAPEN (R107). -/
def FForm.Traps (f : FForm) (w : Warp) : Prop := ∃ k, k < 5 ∧ f.Raises w k ∧ w.trapen.getLsbD k = true

/-- R105, R107: with no enabled flag raised, the result stands in the active lanes and FPSTAT gains the flags of the active lanes. -/
def FloatReg (f : FForm) : Prop :=
  ∀ s : State, s.w.portOf f.d = none → Ready f.form.use s → ¬ f.Traps s.w → ∃ t, exec f.i s = .next t ∧
    OnlyWarp s t ∧ RegResult f.form (f.form.v s.w) s t ∧
    (∀ k, k < 5 → (t.w.fpstat.getLsbD k = true ↔ s.w.fpstat.getLsbD k = true ∨ f.Raises s.w k)) ∧
    t.w = { s.w with vregs := t.w.vregs, resV := t.w.resV, fpstat := t.w.fpstat, busy := s.W / 16,
                     p := { s.w.p with stage := t.w.p.stage } }.advance s.ilen
/-- R107: an enabled flag is raised: FPSTAT gains the flags, trap 0x0D is taken, and it names the lanes that raised one. -/
def FloatTrap (f : FForm) : Prop :=
  ∀ s : State, Ready f.form.use s → f.Traps s.w → ∃ (fl : Flags) (m : Word),
    exec f.i s = .next (takeTrap { s with w := { s.w with fpstat := s.w.fpstat ||| fl } } { code := 0x0D, tmask := m }) ∧
    (∀ k, k < 5 → (fl.getLsbD k = true ↔ f.Raises s.w k)) ∧
    ∀ L, L < s.w.W → L < 64 → (m.getLsbD L = true ↔
      (s.w.activeMask f.ms).getLsbD L = true ∧ (f.v s.w L).2 &&& s.w.trapen ≠ 0)

def lane32 (x : Nat × Flags) : Lane × Flags := (BitVec.ofNat 32 x.1, x.2)
def F2 (k : Ctl → VIdx → VIdx → VIdx → MIdx → Rnd → Instr) (R : FForm → Prop) (f : RM → Nat → Nat → Nat × Flags) : Prop :=
  ∀ c d a b ms r, R { vs := [(a, luA c), (b, luB c)], d := d, ms := ms, i := k c d a b ms r,
                      v := fun w L => lane32 (f (modeOf w r) (w.lane a L).toNat (w.lane b L).toNat) }
def F1 (k : Ctl → VIdx → VIdx → MIdx → Instr) (R : FForm → Prop) (f : Nat → Nat × Flags) : Prop :=
  ∀ c d a ms, R { vs := [(a, luA c)], d := d, ms := ms, i := k c d a ms, v := fun w L => lane32 (f (w.lane a L).toNat) }
/-- R228: both halves of a lane, each with the operation of its format. -/
def packed (f : Nat → Nat → Nat → Nat × Flags) (x y z : Lane) : Lane × Flags :=
  let lo := f (x.toNat % 65536) (y.toNat % 65536) (z.toNat % 65536)
  let hi := f (x.toNat / 65536) (y.toNat / 65536) (z.toNat / 65536)
  (BitVec.ofNat 32 (lo.1 + 65536 * hi.1), lo.2 ||| hi.2)

/-- R224 to R227: float arithmetic; the special functions' open results are free values within R122's bound (log 10). -/
def FloatArithmetic (R : FForm → Prop) : Prop :=
  F2 .fadd R f32.add ∧ F2 .fsub R f32.sub ∧ F2 .fmul R f32.mul ∧ F2 .fdiv R f32.div ∧
  (∀ c d a b cc ms r, R { vs := [(a, luA c), (b, luB c), (cc, luC c)], d := d, ms := ms, i := .ffma c d a b cc ms r,
                          v := fun w L => lane32 (f32.fma (modeOf w r) (w.lane a L).toNat (w.lane b L).toNat (w.lane cc L).toNat) }) ∧
  (∀ c d a ms r, R { vs := [(a, luA c)], d := d, ms := ms, i := .fsqrt c d a ms r,
                     v := fun w L => lane32 (f32.sqrt (modeOf w r) (w.lane a L).toNat) }) ∧
  (∀ c d a b ms r, R { vs := [(a, luA c), (b, luB c)], d := d, ms := ms, i := .fscale c d a b ms r,
                       v := fun w L => lane32 (fscale (modeOf w r) (w.lane a L).toNat (w.lane b L).toInt) }) ∧
  F2 (fun c d a b ms _ => .fmin c d a b ms) R (fun _ => f32.minmax false) ∧ F2 (fun c d a b ms _ => .fmax c d a b ms) R (fun _ => f32.minmax true) ∧
  F1 .frcp R (specialV .rcp) ∧ F1 .frsq R (specialV .rsq) ∧ F1 .fexp2 R (specialV .exp2) ∧ F1 .flog2 R (specialV .log2) ∧
  F1 .fsin R (specialV .sin) ∧ F1 .fcos R (specialV .cos) ∧ F1 .ftanh R (specialV .tanh)
/-- R228, R231, R232, R229: packed halves, conversions, SCACC on vectors. -/
def FloatFormats (R : FForm → Prop) : Prop :=
  (∀ c d a b cc ms r bf, R { vs := [(a, luA c), (b, luB c), (cc, luC c)], d := d, ms := ms, i := .hfma2 c d a b cc ms r bf,
                             v := fun w L => packed ((if bf then bf16 else f16).fma (modeOf w r)) (w.lane a L) (w.lane b L) (w.lane cc L) }) ∧
  (∀ c d a b ms r bf, R { vs := [(a, luA c), (b, luB c)], d := d, ms := ms, i := .hadd2 c d a b ms r bf,
                          v := fun w L => packed (fun x y _ => (if bf then bf16 else f16).add (modeOf w r) x y) (w.lane a L) (w.lane b L) 0 }) ∧
  (∀ c d a b ms r bf, R { vs := [(a, luA c), (b, luB c)], d := d, ms := ms, i := .hmul2 c d a b ms r bf,
                          v := fun w L => packed (fun x y _ => (if bf then bf16 else f16).mul (modeOf w r) x y) (w.lane a L) (w.lane b L) 0 }) ∧
  (∀ c d a ms dst src r, R { vs := [(a, luA c)], d := d, ms := ms, i := .cvt c d a ms dst src r,
                             v := fun w L => cvtLane dst src (modeOf w r) (w.lane a L) }) ∧
  (∀ c d a b ms t hi r, R { vs := [(a, luA c), (b, luB c)] ++ if PackTy_byte t then [(d, false)] else [], d := d, ms := ms,
                            i := .pack c d a b ms t hi r, v := fun w L => packLane t hi (modeOf w r) (w.lane d L) (w.lane a L) (w.lane b L) }) ∧
  (∀ c d a ms t n, R { vs := [(a, luA c)], d := d, ms := ms, i := .unpack c d a ms t n, v := fun w L => unpackLane t n.toNat (w.lane a L) }) ∧
  (∀ c d a b cc ms, R { vs := [(a, luA c), (b, luB c), (cc, luC c), (d, false)], d := d, ms := ms, i := .scacc c d (.v a) (.v b) (.v cc) ms,
                        v := fun w L => lane32 (scaccV (w.lane a L).toInt (w.lane b L).toNat (w.lane cc L).toNat (w.lane d L).toNat) })

/-! ## Cross-lane instructions (spec/10 R234 to R237) -/

/-- R234: a subgroup width that W admits; `full` is W. -/
def groupOk (g : GCode) (W G : Nat) : Prop := groupW W g = some G
/-- A rule for instructions of subgroups that W admits; a subgroup's width is a power of two, W being 16, 32 or 64 (R5). -/
def InGroup (g : GCode) (f : Nat → VForm) : Prop :=
  ∀ (s : State) (G k : Nat), groupOk g s.w.W G → G = 2 ^ k → s.w.portOf (f G).d = none → Ready (f G).use s →
    ∃ t, exec (f G).i s = .next t ∧ VectorsOnly s t ∧ RegResult (f G) ((f G).v s.w) s t
/-- R235: the lane a shuffle reads for a requested position j of the subgroup of lane L. -/
def sourceLane (G : Nat) (m : IdxMode) (L : Nat) (j : Int) : Nat :=
  let base := L / G * G
  if 0 ≤ j ∧ j < (G : Int) then base + j.toNat
  else match m with
    | .wrap => base + (j.emod G).toNat
    | .clamp => if j < 0 then base else base + (G - 1)
    | .own => L
/-- The active lanes of the subgroup of lane L, in ascending order. -/
def groupLanes (w : Warp) (ms : MIdx) (G L : Nat) : List Nat :=
  ((List.range G).map fun x => L / G * G + x).filter fun M => (w.activeMask ms).getLsbD M

end Sys2Proof.Stmt

/-- R224 to R232: float results and sticky flags where no enabled flag is raised. -/
def Obligations.FloatResults : Prop := FloatArithmetic FloatReg ∧ FloatFormats FloatReg
/-- R107: where an enabled flag is raised, the float trap. -/
def Sys2Proof.Stmt.FloatTraps : Prop := FloatArithmetic FloatTrap ∧ FloatFormats FloatTrap

/-- R225: FCMP writes the mask of lanes where the predicate holds; a NaN makes only NE and UN hold. -/
def Sys2Proof.Stmt.FloatCompare : Prop :=
  ∀ (c : Ctl) (d : MIdx) (a b : VIdx) (ms : MIdx) (p : FPred) (s : State), Ready { vsrc := [(a, luA c), (b, luB c)], ms := ms } s →
    (∀ L, L < s.w.W → (s.w.activeMask ms).getLsbD L = true → (fcmp p (s.w.lane a L).toNat (s.w.lane b L).toNat).2 &&& s.w.trapen = 0) →
    ∃ t, exec (.fcmp c d a b ms p) s = .next t ∧ OnlyWarp s t ∧
      (∀ L, L < s.w.W → L < 64 → ((t.w.rdM d).getLsbD L = true ↔
        if s.w.activeMask ms = 0 then (s.w.rdM d).getLsbD L = true
        else (if (s.w.activeMask ms).getLsbD L then (fcmp p (s.w.lane a L).toNat (s.w.lane b L).toNat).1 = true
              else (s.w.rdM d).getLsbD L = true) ∧ (d = 0 → s.w.p.lanes.getLsbD L = true))) ∧
      (∀ k, k < 5 → (t.w.fpstat.getLsbD k = true ↔ s.w.fpstat.getLsbD k = true ∨
        ∃ L, L < s.w.W ∧ (s.w.activeMask ms).getLsbD L = true ∧ (fcmp p (s.w.lane a L).toNat (s.w.lane b L).toNat).2.getLsbD k = true)) ∧
      (∀ m, m ≠ d → t.w.rdM m = s.w.rdM m) ∧
      (∀ r, s.w.portOf r = none → KeptV [(a, luA c), (b, luB c)] r → ∀ L, t.w.lane r L = s.w.lane r L) ∧
      t.w.sregs = s.w.sregs ∧ t.w.p.pc = s.w.p.pc + s.ilen

/-- R107, R108, R225: the float trap, and float comparison. -/
def Obligations.FloatFlagsAndCompares : Prop := Stmt.FloatTraps ∧ Stmt.FloatCompare

/-- R234, R235: shuffles and BCAST: lane L takes the value that the source has in its source lane, active or not. -/
def Sys2Proof.Stmt.Shuffles : Prop :=
  (∀ c d a b ms g m, InGroup g fun G => { vs := [(a, luA c), (b, luB c)], d := d, ms := ms, i := .shfl c d a b ms g m,
                                          v := fun w L => w.lane a (sourceLane G m L (w.lane b L).toInt) }) ∧
  (∀ c d a n ms g m, InGroup g fun G => { vs := [(a, luA c)], d := d, ms := ms, i := .shflup c d a n ms g m,
                                          v := fun w L => w.lane a (sourceLane G m L ((L % G : Nat) - (n.toNat : Int))) }) ∧
  (∀ c d a n ms g m, InGroup g fun G => { vs := [(a, luA c)], d := d, ms := ms, i := .shfldn c d a n ms g m,
                                          v := fun w L => w.lane a (sourceLane G m L ((L % G : Nat) + (n.toNat : Int))) }) ∧
  (∀ c d a n ms g m, InGroup g fun G => { vs := [(a, luA c)], d := d, ms := ms, i := .shflx c d a n ms g m,
                                          v := fun w L => w.lane a (sourceLane G m L (((L % G) ^^^ n.toNat : Nat) : Int)) }) ∧
  (∀ c d a n ms g m, InGroup g fun G => { vs := [(a, luA c)], d := d, ms := ms, i := .bcast c d a (.imm n) ms g m,
                                          v := fun w L => w.lane a (sourceLane G m L (n.toNat : Int)) }) ∧
  (∀ c d a b ms g m, InGroup g fun G => { vs := [(a, luA c)], ss := [(b, luB c)], d := d, ms := ms, i := .bcast c d a (.reg b) ms g m,
                                          v := fun w L => w.lane a (sourceLane G m L ((w.rdS b).setWidth 32).toInt) })

/-- R236, R237: integer reductions give each active lane the sum, minimum or maximum over the active lanes of its subgroup; VSCAN the
sum over those up to its own lane, or strictly below it with .EX. -/
def Sys2Proof.Stmt.IntegerReductions : Prop :=
  (∀ c d a ms g, InGroup g fun G => { vs := [(a, luA c)], d := d, ms := ms, i := .vredadd c d a ms g,
                                      v := fun w L => ((groupLanes w ms G L).map (w.lane a)).foldl (fun x y => x + y) 0 }) ∧
  (∀ c d a ms g, InGroup g fun G => { vs := [(a, luA c)], d := d, ms := ms, i := .vredmin c d a ms g false,
                                      v := fun w L => BitVec.ofInt 32 (((groupLanes w ms G L).map fun M => (w.lane a M).toInt).foldl min (w.lane a L).toInt) }) ∧
  (∀ c d a ms g, InGroup g fun G => { vs := [(a, luA c)], d := d, ms := ms, i := .vredmin c d a ms g true,
                                      v := fun w L => BitVec.ofNat 32 (((groupLanes w ms G L).map fun M => (w.lane a M).toNat).foldl min (w.lane a L).toNat) }) ∧
  (∀ c d a ms g, InGroup g fun G => { vs := [(a, luA c)], d := d, ms := ms, i := .vredmax c d a ms g false,
                                      v := fun w L => BitVec.ofInt 32 (((groupLanes w ms G L).map fun M => (w.lane a M).toInt).foldl max (w.lane a L).toInt) }) ∧
  (∀ c d a ms g, InGroup g fun G => { vs := [(a, luA c)], d := d, ms := ms, i := .vredmax c d a ms g true,
                                      v := fun w L => BitVec.ofNat 32 (((groupLanes w ms G L).map fun M => (w.lane a M).toNat).foldl max (w.lane a L).toNat) }) ∧
  (∀ c d a ms g, InGroup g fun G => { vs := [(a, luA c)], d := d, ms := ms, i := .vscan c d a ms g false,
                                      v := fun w L => (((groupLanes w ms G L).filter fun M => M ≤ L).map (w.lane a)).foldl (fun x y => x + y) 0 }) ∧
  (∀ c d a ms g, InGroup g fun G => { vs := [(a, luA c)], d := d, ms := ms, i := .vscan c d a ms g true,
                                      v := fun w L => (((groupLanes w ms G L).filter fun M => M < L).map (w.lane a)).foldl (fun x y => x + y) 0 })

/-- R123, R124, R237: float reductions and scans combine the active lanes of a subgroup in the order of the tree; their flags are
those of the subgroups' trees. -/
def Sys2Proof.Stmt.FloatReductions : Prop :=
  ∀ (c : Ctl) (d a : VIdx) (ms : MIdx) (g : GCode) (s : State) (G : Nat), groupOk g s.w.W G → s.w.portOf d = none →
    Ready { vsrc := [(a, luA c)], vdst := [d], ms := ms } s → s.w.trapen = 0 →
    ∀ (i : Instr) (v : Nat → Lane),
      ((∃ r, i = .fredadd c d a ms g r ∧ v = fun L => (redLane (fun w => f32.add (modeOf w r)) a G (s.w.activeMask ms) s.w L).1) ∨
       (i = .fredmin c d a ms g ∧ v = fun L => (redNum false a G (s.w.activeMask ms) s.w L).1) ∨
       (i = .fredmax c d a ms g ∧ v = fun L => (redNum true a G (s.w.activeMask ms) s.w L).1) ∨
       (∃ r ex, i = .fscan c d a ms g ex r ∧
         v = fun L => (scanLane (fun w => f32.add (modeOf w r)) a G ex (s.w.activeMask ms) s.w L).1)) →
      ∃ t, exec i s = .next t ∧ OnlyWarp s t ∧
        RegResult { vs := [(a, luA c)], d := d, ms := ms, i := i, v := fun _ => v } v s t ∧ t.w.p.pc = s.w.p.pc + s.ilen ∧
        (∀ k, k < 5 → s.w.fpstat.getLsbD k = true → t.w.fpstat.getLsbD k = true) ∧ t.w.masks = s.w.masks ∧ t.w.ops = s.w.ops

/-- R236, R237: reductions and scans. -/
def Obligations.Reductions : Prop := Stmt.IntegerReductions ∧ Stmt.FloatReductions

/-- R238: VTOS reads one lane, active or not, into a scalar, zero- or sign-extended, and does nothing with no active lane; VINS writes
one lane of its destination if that lane is active. -/
def Sys2Proof.Stmt.LaneMoves : Prop :=
  (∀ (c : Ctl) (d : SIdx) (a : VIdx) (l : LaneSel) (ms : MIdx) (sx : Bool) (s : State), s.w.activeMask 0 ≠ 0 →
    Ready { vsrc := [(a, luA c)], ssrc := selSrc c l, sdst := [d], ms := ms } s →
    ∃ t, exec (.vtos c d a l ms sx) s = .next t ∧ OnlyWarp s t ∧
      t.w.rdS d = (if d = 0 then 0 else if sx then (s.w.lane a (laneSel s.w l)).signExtend 64 else (s.w.lane a (laneSel s.w l)).setWidth 64) ∧
      (∀ r, r ≠ d → KeptS (selSrc c l) r → t.w.rdS r = s.w.rdS r) ∧
      (∀ r, s.w.portOf r = none → KeptV [(a, luA c)] r → ∀ L, t.w.lane r L = s.w.lane r L) ∧ t.w.p.pc = s.w.p.pc + s.ilen) ∧
  (∀ (c : Ctl) (d : SIdx) (a : VIdx) (l : LaneSel) (ms : MIdx) (sx : Bool) (s : State), s.w.activeMask 0 = 0 →
    Ready { vsrc := [(a, luA c)], ssrc := selSrc c l, ms := ms } s →
    ∃ t, exec (.vtos c d a l ms sx) s = .next t ∧ (∀ r, KeptS (selSrc c l) r → t.w.rdS r = s.w.rdS r)) ∧
  (∀ (c : Ctl) (d : VIdx) (a : SIdx) (l : LaneSel) (ms : MIdx) (s : State), s.w.portOf d = none →
    Ready { ssrc := (a, luA c) :: selSrc c l, vdst := [d], ms := ms } s →
    ∃ t, exec (.vins c d a l ms) s = .next t ∧ VectorsOnly s t ∧
      (∀ L, L < s.w.W → t.w.lane d L =
        if L = laneSel s.w l ∧ (s.w.activeMask ms).getLsbD L = true then (s.w.rdS a).setWidth 32 else s.w.lane d L) ∧
      (∀ r, r ≠ d → s.w.portOf r = none → ∀ L, t.w.lane r L = s.w.lane r L) ∧
      (∀ r, KeptS ((a, luA c) :: selSrc c l) r → t.w.rdS r = s.w.rdS r))

/-- R234, R235, R238: values that move between lanes. -/
def Obligations.LanesAcross : Prop := Stmt.Shuffles ∧ Stmt.LaneMoves

namespace Sys2Proof.Stmt
open Sys2Proof.Machine

/-! ## Memory (spec/11) -/

/-- An operation has been issued: it is outstanding under the warp's next number and counts in its class (R74); the operations before
it stay; no byte of memory or of a scratchpad has changed; the program counter is past the instruction. -/
def Issued (s t : State) (o : Op) : Prop :=
  { o with id := s.w.opNext } ∈ t.w.ops ∧ t.w.opNext = s.w.opNext + 1 ∧ t.w.cnt o.cls = s.w.cnt o.cls + 1 ∧
  (∀ x ∈ s.w.ops, ∃ y ∈ t.w.ops, y.id = x.id ∧ y.cls = x.cls ∧ y.k = x.k ∧ y.accs = x.accs ∧ y.done = x.done ∧ y.dst = x.dst) ∧
  t.mem = s.mem ∧ (∀ c a, (t.core c).sp.get a = (s.core c).sp.get a) ∧ t.w.p.pc = s.w.p.pc + s.ilen
/-- Registers that issue leaves alone: no destination, no last-use source. -/
def RegsKept (s t : State) (u : Use) : Prop :=
  (∀ r, r ∉ u.vdst → s.w.portOf r = none → KeptV u.vsrc r → ∀ L, t.w.lane r L = s.w.lane r L) ∧
  (∀ r, r ∉ u.sdst → KeptS u.ssrc r → t.w.rdS r = s.w.rdS r) ∧
  t.w.masks = s.w.masks ∧ t.w.p.exec = s.w.p.exec ∧ t.w.brk = s.w.brk ∧ t.w.fpstat = s.w.fpstat

/-- R243: the address of a lane: base + sign-extended index (or lane number × bytes where no index is given) + offset. -/
def laneAddr (w : Warp) (m : MemV) (n L : Nat) : Nat :=
  (w.rdS m.base + (match m.idx with
    | some r => (w.lane r L).signExtend 64
    | none => BitVec.ofNat 64 (L * n)) + m.off.signExtend 64).toNat
/-- The active lanes in ascending order, with their addresses and bytes. -/
def laneElems (w : Warp) (m : MemV) (n : Nat) : List Elem :=
  ((List.range w.W).filter fun L => (w.activeMask m.ms).getLsbD L).map fun L => (L, laneAddr w m n L, n)
/-- R246: the address of a scalar access. -/
def scalarAddr (w : Warp) (m : MemS) : Nat := (w.rdS m.base + m.off.signExtend 64).toNat

def useLd (c : Ctl) (d : VIdx) (m : MemV) (wd : Wid) : Use :=
  { vsrc := Sys2Proof.Machine.memV c m, ssrc := [(m.base, luA c)], vdst := if wd == .w64 then [d, d + 1] else [d], ms := m.ms, cls := some .ld }
def useSt (c : Ctl) (d : VIdx) (m : MemV) (wd : Wid) : Use :=
  { vsrc := Sys2Proof.Machine.memV c m ++ (if wd == .w64 then [(d, luC c), (d + 1, false)] else [(d, luC c)]), ssrc := [(m.base, luA c)], ms := m.ms, cls := some .st }
/-- The data a lane stores: its register, or a pair, low register first. -/
def laneData (w : Warp) (d : VIdx) (pair : Bool) (L : Nat) : Nat :=
  (w.lane d L).toNat + if pair then (w.lane (d + 1) L).toNat * 2 ^ 32 else 0

/-- R248 to R250: an atomic that returns the old value: class ld, operands taken at issue, D pending. -/
def AtomRule (i : Ctl → VIdx → MemV → Bool → Instr) (o : Rmw) (ok64 : Bool) : Prop :=
  ∀ (c : Ctl) (d : VIdx) (m : MemV) (w64 : Bool) (s : State) (accs : List Acc), (w64 = true → ok64 = true) →
    let u : Use := { vsrc := Sys2Proof.Machine.memV c m ++ regs1 c (rmwRegs o d w64), ssrc := [(m.base, luA c)],
                     vdst := if w64 then [d, d + 1] else [d], ms := m.ms, cls := some .ld }
    Ready u s → s.w.portOf d = none → (w64 = true → s.w.portOf (d + 1) = none) →
    checkElems s s.w .atomic m.sp (laneElems s.w m (if w64 then 8 else 4)) = .ok accs → accs ≠ [] →
    ∃ t, exec (i c d m w64) s = .next t ∧ RegsKept s t u ∧ t.w.pendingV d = true ∧
      Issued s t { id := 0, cls := .ld, k := .rmw o true, sp := m.sp, accs := rmwAccs s.w o d w64 accs, dst := .vec d w64, pc := s.w.p.pc }
/-- R248 to R250: one that returns nothing: class st. -/
def RedRule (i : Ctl → VIdx → MemV → Bool → Instr) (o : Rmw) (ok64 : Bool) : Prop :=
  ∀ (c : Ctl) (d : VIdx) (m : MemV) (w64 : Bool) (s : State) (accs : List Acc), (w64 = true → ok64 = true) →
    let u : Use := { vsrc := Sys2Proof.Machine.memV c m ++ regs1 c (rmwRegs o d w64), ssrc := [(m.base, luA c)], ms := m.ms, cls := some .st }
    Ready u s → checkElems s s.w .store m.sp (laneElems s.w m (if w64 then 8 else 4)) = .ok accs → accs ≠ [] →
    ∃ t, exec (i c d m w64) s = .next t ∧ RegsKept s t u ∧
      Issued s t { id := 0, cls := .st, k := .rmw o false, sp := m.sp, accs := rmwAccs s.w o d w64 accs, pc := s.w.p.pc }

end Sys2Proof.Stmt

/-- R244, R246: loads: the active lanes' elements, or the scalar's, become one outstanding operation of class ld, and the destination
waits for it; with no active lane a vector load does nothing (R47). -/
def Sys2Proof.Stmt.LoadsIssue : Prop :=
  (∀ (c : Ctl) (d : VIdx) (m : MemV) (wd : Wid) (s : State) (accs : List Acc), Ready (useLd c d m wd) s →
    s.w.portOf d = none → (wd = .w64 → s.w.portOf (d + 1) = none) →
    checkElems s s.w .load m.sp (laneElems s.w m (widBytes wd)) = .ok accs → accs ≠ [] →
    ∃ t, exec (.ld c d m wd) s = .next t ∧ RegsKept s t (useLd c d m wd) ∧
      t.w.pendingV d = true ∧ (wd = .w64 → t.w.pendingV (d + 1) = true) ∧
      Issued s t { id := 0, cls := .ld, k := .load wd false, sp := m.sp, accs := accs, dst := .vec d (wd == .w64), pc := s.w.p.pc }) ∧
  (∀ (c : Ctl) (d : VIdx) (m : MemV) (wd : Wid) (s : State), Ready (useLd c d m wd) s →
    s.w.portOf d = none → (wd = .w64 → s.w.portOf (d + 1) = none) → s.w.activeMask m.ms = 0 →
    ∃ t, exec (.ld c d m wd) s = .next t ∧ RegsKept s t { useLd c d m wd with vdst := [] } ∧ t.w.ops = s.w.ops ∧ t.mem = s.mem ∧
      t.w.p.pc = s.w.p.pc + s.ilen) ∧
  (∀ (c : Ctl) (d : SIdx) (m : MemS) (wd : Wid) (s : State) (accs : List Acc),
    let u : Use := { ssrc := [(m.base, luA c)], sdst := [d], cls := some .ld }
    Ready u s → checkElems s s.w .load m.sp [(0, scalarAddr s.w m, widBytes wd)] = .ok accs →
    ∃ t, exec (.ldsc c d m wd) s = .next t ∧ RegsKept s t u ∧ (d ≠ 0 → t.w.pendingS d = true) ∧
      Issued s t { id := 0, cls := .ld, k := .load wd true, sp := m.sp, accs := accs, dst := .sca d, pc := s.w.p.pc, scalar := true })

/-- R245: a load of up to 32 bits into a write port appends its elements to the stream, by a store of class st linked to the load. That
they take their positions in the stream when the load issues is the model's reading (log 27): R245 has them appended at its completion. -/
def Sys2Proof.Stmt.LoadToPort : Prop :=
  ∀ (c : Ctl) (d : VIdx) (m : MemV) (wd : Wid) (p : Nat) (s : State) (accs outs : List Acc), wd ≠ .w64 → Ready (useLd c d m wd) s →
    s.w.portOf d = some p → checkElems s s.w .load m.sp (laneElems s.w m (widBytes wd)) = .ok accs → accs ≠ [] →
    checkElems s s.w .store false (portElems s.w.W (s.w.sd p) (s.w.activeMask m.ms)) = .ok outs → outs ≠ [] →
    ∃ t, exec (.ld c d m wd) s = .next t ∧ t.mem = s.mem ∧ t.w.p.pc = s.w.p.pc + s.ilen ∧
      t.w.sd p = { s.w.sd p with pos := (s.w.sd p).pos + BitVec.ofNat 32 s.w.W } ∧
      { id := s.w.opNext, cls := .ld, k := .load wd false, sp := m.sp, accs := accs, dst := .vec d false, pc := s.w.p.pc, port := (true, false) } ∈ t.w.ops ∧
      { id := s.w.opNext + 1, cls := .st, k := .store, accs := outs, pc := s.w.p.pc, link := some s.w.opNext } ∈ t.w.ops

/-- R242 to R246: loads, scalar and vector, to registers and to ports. -/
def Obligations.Loads : Prop := Stmt.LoadsIssue ∧ Stmt.LoadToPort

/-- R72: a port named in the direction it is not bound for raises 0x0C, whatever the mask, and nothing advances. -/
def Sys2Proof.Stmt.WrongWay (f : VForm) : Prop :=
  ∀ (s : State) (p : Nat), ((∃ x ∈ f.vs, s.w.portOf x.1 = some p ∧ (s.w.sd p).dir = true) ∨ s.w.portOf f.d = some p ∧ (s.w.sd p).dir = false) →
    exec f.i s = .next (takeTrap s { code := 0x0C })
def Sys2Proof.Stmt.PortDirection : Prop := IntegerVectors WrongWay ∧ ImmediateVectors WrongWay ∧ PlainFloats WrongWay
/-- R242: an instruction that reads a register an outstanding operation is to write waits, and nothing else happens. -/
def Sys2Proof.Stmt.PendingWaits (f : VForm) : Prop :=
  ∀ s : State, wrongWay s.w f.use = false →
    ((∃ x ∈ f.vs, s.w.portOf x.1 = none ∧ s.w.pendingV x.1 = true) ∨ ∃ x ∈ f.ss, s.w.pendingS x.1 = true) →
    exec f.i s = .next { s with w := { s.w with wait := .reg, stalled := true } }
def Sys2Proof.Stmt.PendingRegistersWait : Prop := IntegerVectors PendingWaits ∧ ImmediateVectors PendingWaits ∧ PlainFloats PendingWaits
/-- R34, R432: an instruction that only writes such a register issues; the younger value stands in the lanes written, and the older
operation writes these lanes no more (log 7, the model's reading). -/
def Sys2Proof.Stmt.OverPending (f : VForm) : Prop :=
  ∀ s : State, s.w.portOf f.d = none → Issues f.use s → s.w.pendingV f.d = true → s.w.activeMask f.ms ≠ 0 →
    ∃ t, exec f.i s = .next t ∧ t.w.p.pc = s.w.p.pc + s.ilen ∧
      (∀ L, L < s.w.W → t.w.lane f.d L = if (s.w.activeMask f.ms).getLsbD L then f.v s.w L else s.w.lane f.d L) ∧
      ∀ o ∈ s.w.ops, s.w.recorded o.id = false → ∀ pair, o.dst = .vec f.d pair → ∃ o' ∈ t.w.ops, o'.id = o.id ∧ o'.dst = o.dst ∧
        ∀ L, o'.left.1.getLsbD L = (o.left.1.getLsbD L && !(s.w.activeMask f.ms).getLsbD L)
def Sys2Proof.Stmt.PendingDestinations : Prop :=
  IntegerVectors OverPending ∧ ImmediateVectors OverPending ∧ PlainFloats OverPending ∧
  (∀ (c : Ctl) (d : SIdx) (n : BitVec 32) (s : State), Issues { sdst := [d] } s → s.w.pendingS d = true → d ≠ 0 →
    ∃ t, exec (.smovi c d n) s = .next t ∧ t.w.p.pc = s.w.p.pc + s.ilen ∧ t.w.rdS d = n.signExtend 64 ∧
      ∀ o ∈ s.w.ops, s.w.recorded o.id = false → o.dst = .sca d → ∃ o' ∈ t.w.ops, o'.id = o.id ∧ o'.left.1 = 0)

/-- R34, R72, R242: what an instruction waits for, what it does not, and the fault of a port named in the wrong direction. -/
def Obligations.IssueWaits : Prop := Stmt.PortDirection ∧ Stmt.PendingRegistersWait ∧ Stmt.PendingDestinations

/-- R244, R246: stores: their data are taken at issue; the operation counts in st; no byte changes before it is applied at its home. -/
def Obligations.StoresIssue : Prop :=
  (∀ (c : Ctl) (d : VIdx) (m : MemV) (wd : Wid) (s : State) (accs : List Acc), Ready (useSt c d m wd) s →
    checkElems s s.w .store m.sp (laneElems s.w m (widBytes wd)) = .ok accs → accs ≠ [] →
    ∃ t, exec (.st c d m wd) s = .next t ∧ RegsKept s t (useSt c d m wd) ∧
      Issued s t { id := 0, cls := .st, k := .store, sp := m.sp, pc := s.w.p.pc,
                   accs := accs.map fun a => { a with data := laneData s.w d (wd == .w64) a.lane % 256 ^ a.n } }) ∧
  (∀ (c : Ctl) (d : SIdx) (m : MemS) (wd : Wid) (s : State) (accs : List Acc),
    let u : Use := { ssrc := [(m.base, luA c), (d, luC c)], cls := some .st }
    Ready u s → checkElems s s.w .store m.sp [(0, scalarAddr s.w m, widBytes wd)] = .ok accs →
    ∃ t, exec (.stsc c d m wd) s = .next t ∧ RegsKept s t u ∧
      Issued s t { id := 0, cls := .st, k := .store, sp := m.sp, pc := s.w.p.pc, scalar := true,
                   accs := accs.map fun a => { a with data := (s.w.rdS d).toNat % 256 ^ a.n } }) ∧
  (∀ (c : Ctl) (m : MemV) (wd : Wid) (s : State), Ready { vsrc := Sys2Proof.Machine.memV c m, ssrc := [(m.base, luA c)], ms := m.ms, vec := true, soft := true } s →
    ∃ t, exec (.pref c m wd) s = .next t ∧ OnlyWarp s t ∧ t.w.ops = s.w.ops ∧
      RegsKept s t { vsrc := Sys2Proof.Machine.memV c m, ssrc := [(m.base, luA c)], ms := m.ms } ∧ t.w.p.pc = s.w.p.pc + s.ilen)

/-- R248, R249, R250: ATOM and FATOM forms issue. -/
def Sys2Proof.Stmt.AtomicsIssue : Prop :=
  AtomRule .atomAdd .add true ∧ AtomRule .atomSub .sub true ∧ AtomRule .atomAnd .and true ∧ AtomRule .atomOr .or true ∧
  AtomRule .atomXor .xor true ∧ AtomRule .atomMin .min true ∧ AtomRule .atomMax .max true ∧ AtomRule .atomMinn .minn true ∧
  AtomRule .atomMaxn .maxn true ∧ AtomRule .atomXchg .xchg true ∧ AtomRule .atomCas .cas true ∧
  AtomRule (fun c d m _ => .fatomAdd c d m) .fadd false ∧ AtomRule (fun c d m _ => .fatomMin c d m) .fmin false ∧
  AtomRule (fun c d m _ => .fatomMax c d m) .fmax false
/-- R248, R250: RED and FRED forms issue. -/
def Sys2Proof.Stmt.ReductionsIssue : Prop :=
  RedRule .redAdd .add true ∧ RedRule .redSub .sub true ∧ RedRule .redAnd .and true ∧ RedRule .redOr .or true ∧
  RedRule .redXor .xor true ∧ RedRule .redMin .min true ∧ RedRule .redMax .max true ∧ RedRule .redMinn .minn true ∧
  RedRule .redMaxn .maxn true ∧
  RedRule (fun c d m _ => .fredAdd c d m) .fadd false ∧ RedRule (fun c d m _ => .fredMin c d m) .fmin false ∧
  RedRule (fun c d m _ => .fredMax c d m) .fmax false

/-- R247 to R251: atomics that return a value, and those that do not. -/
def Obligations.AtomicOperations : Prop := Stmt.AtomicsIssue ∧ Stmt.ReductionsIssue

/-- R248, R249: what a read-modify-write makes of the old value: integers modulo 2^n, and CAS the new value only on equality. -/
def Sys2Proof.Stmt.AtomicValues : Prop :=
  ∀ (n old x y : Nat), (n = 4 ∨ n = 8) → old < 256 ^ n → x < 256 ^ n → y < 256 ^ n →
    rmwNew .add n old x y = (old + x) % 256 ^ n ∧ rmwNew .sub n old x y = (old + 256 ^ n - x) % 256 ^ n ∧
    rmwNew .and n old x y = old &&& x ∧ rmwNew .or n old x y = old ||| x ∧ rmwNew .xor n old x y = old ^^^ x ∧
    rmwNew .minn n old x y = min old x ∧ rmwNew .maxn n old x y = max old x ∧
    ((BitVec.ofNat (8 * n) (rmwNew .min n old x y)).toInt = min (BitVec.ofNat (8 * n) old).toInt (BitVec.ofNat (8 * n) x).toInt) ∧
    ((BitVec.ofNat (8 * n) (rmwNew .max n old x y)).toInt = max (BitVec.ofNat (8 * n) old).toInt (BitVec.ofNat (8 * n) x).toInt) ∧
    rmwNew .xchg n old x y = x ∧ rmwNew .cas n old x y = (if old = x then y else old) ∧
    (rmwWrites .cas old x = true ↔ old = x)

/-- R243: a misaligned element raises 0x06 before any access; the frame names the lanes that raise it and the address of the lowest. -/
def Sys2Proof.Stmt.MisalignedLanes : Prop :=
  ∀ (c : Ctl) (d : VIdx) (m : MemV) (wd : Wid) (s : State) (b : Bool), s.w.W ≤ 64 →
    Ready (if b then useLd c d m wd else useSt c d m wd) s →
    (∃ e ∈ laneElems s.w m (widBytes wd), e.2.1 % e.2.2 ≠ 0) →
    ∃ tr : TrapInfo, exec (if b then .ld c d m wd else .st c d m wd) s = .next (takeTrap s tr) ∧ tr.code = 0x06 ∧
      (∀ L, L < 64 → (tr.tmask.getLsbD L = true ↔
        ∃ e ∈ laneElems s.w m (widBytes wd), e.1 = L ∧ e.2.1 % e.2.2 ≠ 0)) ∧
      ∃ e ∈ laneElems s.w m (widBytes wd), e.2.1 % e.2.2 ≠ 0 ∧ tr.taddr = e.2.1 % 2 ^ 56

/-- R133, R243, R247 to R250: what an atomic leaves in memory, and the alignment rule. -/
def Obligations.ValuesAndAlignment : Prop := Stmt.AtomicValues ∧ Stmt.MisalignedLanes

/-- R251, R252: LDRES sets the warp's reservation on its address and width and opens the slip window; STCON clears it, and is to store
exactly where the reservation was held, on its address and width, and not lost. -/
def Obligations.LoadReserve : Prop :=
  (∀ (c : Ctl) (d : SIdx) (m : MemS) (w64 : Bool) (s : State) (a : Acc),
    let u : Use := { ssrc := [(m.base, luA c)], sdst := [d], cls := some .ld }
    Ready u s → checkElems s s.w .atomic m.sp [(0, scalarAddr s.w m, if w64 then 8 else 4)] = .ok [a] →
    ∃ t, exec (.ldres c d m w64) s = .next t ∧ RegsKept s t u ∧ (d ≠ 0 → t.w.pendingS d = true) ∧
      t.w.ldr = some { op := s.w.opNext, addr := a.addr, va := a.va, sp := m.sp, w64 := w64 } ∧ t.w.ldrLost = false ∧
      t.w.win = (if s.w.win = 0 then Config.ldresWindow else s.w.win - 1) ∧
      Issued s t { id := 0, cls := .ld, k := .ldres, sp := m.sp, accs := [a], dst := .sca d, pc := s.w.p.pc, scalar := true }) ∧
  (∀ (c : Ctl) (d : SIdx) (m : MemS) (w64 : Bool) (s : State) (a : Acc),
    let u : Use := { ssrc := [(m.base, luA c), (d, luC c)], sdst := [d], cls := some .st }
    Ready u s → checkElems s s.w .atomic m.sp [(0, scalarAddr s.w m, if w64 then 8 else 4)] = .ok [a] →
    ∃ (t : State) (ok : Bool), exec (.stcon c d m w64) s = .next t ∧ RegsKept s t u ∧ (d ≠ 0 → t.w.pendingS d = true) ∧ t.w.ldr = none ∧
      (ok = true ↔ ∃ r, s.w.ldr = some r ∧ r.va = a.va ∧ r.sp = m.sp ∧ r.w64 = w64 ∧ s.w.ldrLost = false) ∧
      Issued s t { id := 0, cls := .st, k := .stcon ok (s.w.ldr.elim 0 LdRes.op), sp := m.sp, dst := .sca d, pc := s.w.p.pc, scalar := true,
                   accs := [{ a with data := (s.w.rdS d).toNat % 256 ^ (if w64 then 8 else 4) }] })

/-- R239 to R241: SBIND fills a descriptor from its scalars with position 0 and clears the port's exhaustion; SUNBIND ends the binding;
SSEEK sets or moves the position; SPOS reads a field. With no active lane nothing happens (R47). -/
def Obligations.StreamDescriptors : Prop :=
  (∀ (c : Ctl) (d : DIdx) (a b cc : SIdx) (wr : Bool) (es : BitVec 3) (s : State),
    let u : Use := { ssrc := [(a, luA c), (b, luB c), (cc, luC c)] }
    Ready u s → s.w.activeMask 0 ≠ 0 → es.toNat ≤ 4 → (s.w.rdS a).toNat < 2 ^ 56 →
    ((s.w.sd d.toNat).bound = true ∨ s.w.pendingV (240 + d.setWidth 8) = false) →
    ∃ t, exec (.sbind c d a b cc wr es) s = .next t ∧ OnlyWarp s t ∧
      t.w.sd d.toNat = { base := s.w.rdS a, stride := (s.w.rdS b).setWidth 32, count := (s.w.rdS cc).setWidth 32, pos := 0,
                         esize := es, dir := wr, bound := true } ∧
      (∀ p, p ≠ d.toNat → t.w.sd p = s.w.sd p) ∧ t.w.exh.getLsbD d.toNat = false ∧
      ((s.w.sd d.toNat).bound = false → t.w.vregs.has (240 + d.toNat) = false) ∧
      (∀ r, KeptS u.ssrc r → t.w.rdS r = s.w.rdS r) ∧ t.w.p.pc = s.w.p.pc + s.ilen ∧ t.w.ops = s.w.ops) ∧
  (∀ (c : Ctl) (d : DIdx) (a b cc : SIdx) (wr : Bool) (es : BitVec 3) (s : State),
    Ready { ssrc := [(a, luA c), (b, luB c), (cc, luC c)] } s → s.w.activeMask 0 ≠ 0 → (5 ≤ es.toNat ∨ 2 ^ 56 ≤ (s.w.rdS a).toNat) →
    exec (.sbind c d a b cc wr es) s = .next (takeTrap s { code := 0x0C })) ∧
  (∀ (c : Ctl) (d : DIdx) (a b cc : SIdx) (wr rel : Bool) (es : BitVec 3) (i : Instr) (s : State),
    (i = .sbind c d a b cc wr es ∨ i = .sunbind c d ∨ i = .sseek c d a rel) →
    Ready { ssrc := [(a, luA c), (b, luB c), (cc, luC c)], vec := true } s → Ready { ssrc := [(a, luA c)], vec := true } s → Ready {} s → s.w.activeMask 0 = 0 →
    ∃ t, exec i s = .next t ∧ OnlyWarp s t ∧ t.w.sds = s.w.sds ∧ t.w.vregs = s.w.vregs ∧ t.w.exh = s.w.exh ∧ t.w.p.pc = s.w.p.pc + s.ilen) ∧
  (∀ (c : Ctl) (d : DIdx) (s : State), Ready {} s → s.w.activeMask 0 ≠ 0 →
    ∃ t, exec (.sunbind c d) s = .next t ∧ OnlyWarp s t ∧ t.w.sd d.toNat = { s.w.sd d.toNat with bound := false } ∧
      (∀ p, p ≠ d.toNat → t.w.sd p = s.w.sd p) ∧ t.w.sregs = s.w.sregs ∧ t.w.vregs = s.w.vregs ∧ t.w.p.pc = s.w.p.pc + s.ilen) ∧
  (∀ (c : Ctl) (d : DIdx) (a : SIdx) (rel : Bool) (s : State), Ready { ssrc := [(a, luA c)] } s → s.w.activeMask 0 ≠ 0 →
    ∃ t, exec (.sseek c d a rel) s = .next t ∧ OnlyWarp s t ∧
      t.w.sd d.toNat = { s.w.sd d.toNat with
        pos := if rel then (s.w.sd d.toNat).pos + (s.w.rdS a).setWidth 32 else (s.w.rdS a).setWidth 32 } ∧
      (∀ p, p ≠ d.toNat → t.w.sd p = s.w.sd p) ∧ (∀ r, r ≠ a → t.w.rdS r = s.w.rdS r) ∧ t.w.p.pc = s.w.p.pc + s.ilen) ∧
  (∀ (c : Ctl) (d : SIdx) (a : DIdx) (f : SposField) (s : State), Ready { sdst := [d] } s → s.w.activeMask 0 ≠ 0 →
    ∃ t, exec (.spos c d a f) s = .next t ∧ OnlyWarp s t ∧
      t.w.rdS d = (if d = 0 then 0 else match f with
        | .pos => (s.w.sd a.toNat).pos.setWidth 64 | .cnt => (s.w.sd a.toNat).count.setWidth 64
        | .base => (s.w.sd a.toNat).base | .str => (s.w.sd a.toNat).stride.signExtend 64) ∧
      (∀ r, r ≠ d → t.w.rdS r = s.w.rdS r) ∧ t.w.sds = s.w.sds ∧ t.w.p.pc = s.w.p.pc + s.ilen)

namespace Sys2Proof.Stmt
open Sys2Proof.Machine

/-! ## Barriers and tiles (spec/04, spec/06, spec/11, spec/12) -/

/-- The instruction has issued and changed nothing that a rule below does not name: registers, memory, other warps stay. -/
def Passed (s t : State) : Prop :=
  t.w.p.pc = s.w.p.pc + s.ilen ∧ t.mem = s.mem ∧ t.warps = s.warps ∧ t.w.vregs = s.w.vregs ∧ t.w.masks = s.w.masks ∧
  t.w.p.exec = s.w.p.exec ∧ t.w.fpstat = s.w.fpstat
/-- It waits: the warp and the rest of the machine stay but for the reason of the wait. -/
def Waits (i : Instr) (s : State) (r : Wait) : Prop := exec i s = .next { s with w := { s.w with wait := r, stalled := true } }

/-- R254: the checks of a barrier object's address: aligned to 16 bytes in a mapped page of the scratchpad. -/
def BarAt (s : State) (base : SIdx) (off : BitVec 12) (a : Nat) : Prop :=
  a = (s.w.rdS base + off.signExtend 64).toNat ∧ a % 16 = 0 ∧ a < 2 ^ 32 ∧ spMapped s s.w a = true
/-- None of the warp's own earlier writes to the object is still to be applied. -/
def BarSettled (s : State) (a : Nat) : Prop := earlierWrite s.w s.w.opNext 0 true { lane := 0, va := a, addr := a, n := 16 } = false

/-- A tile operand that lies in the gang's window, and its absolute name (R82). -/
def Names (w : Warp) (t : TileRef) (n : Nat) : Prop :=
  let r := match t with
    | .name k => k.toNat
    | .reg r => (w.rdS r).toNat
  r < w.id.tncount ∧ n = w.id.tnbase + r
/-- The warp is the definer of a FILLING name with no seal pending (R85, R87). -/
def Filling (s : State) (n : Nat) : Prop :=
  (s.tile s.w.cluster n).st = .filling ∧ (s.tile s.w.cluster n).defw = s.w.idx ∧ (s.tile s.w.cluster n).defb = s.w.id.block ∧
  (s.tile s.w.cluster n).sealP = false
/-- Other names of the cluster stay. -/
def OtherTiles (s t : State) (n : Nat) : Prop := ∀ m, m ≠ n → t.tile s.w.cluster m = s.tile s.w.cluster m

end Sys2Proof.Stmt

/-- R135, R253: a fence completes where what it covers has been applied and its times are past, and waits otherwise. -/
def Sys2Proof.Stmt.Fences : Prop :=
  ∀ (c : Ctl) (sc : Scope) (s : State),
    (fenceOk s s.w sc = true → ∃ t, exec (.fence c sc) s = .next t ∧ OnlyWarp s t ∧ t.w = s.w.advance s.ilen) ∧
    (fenceOk s s.w sc = false → Waits (.fence c sc) s .fence) ∧
    ((∀ o ∈ s.w.ops, o.done = true) → s.w.lctb < s.now → s.w.lctg < s.now → s.w.lctd < s.now → fenceOk s s.w sc = true) ∧
    (sc ≠ .b → (∃ o ∈ s.w.ops, o.done = false ∧ o.k.own = true ∧ o.sp = false) → fenceOk s s.w sc = false)

/-- R254: updates of barrier objects are counted in st and applied at the bank. -/
def Sys2Proof.Stmt.BarrierUpdates : Prop :=
  (∀ (c : Ctl) (d base : SIdx) (off : BitVec 12) (s : State) (a : Nat), BarAt s base off a →
    let u : Use := { ssrc := [(base, luA c), (d, luC c)], cls := some .st }
    Ready u s → ∃ t, exec (.barinit c d base off) s = .next t ∧ RegsKept s t u ∧
      Issued s t { id := 0, cls := .st, sp := true, accs := [{ lane := 0, va := a, addr := a, n := 16 }], pc := s.w.p.pc, scalar := true,
                   k := .bar (.init ((s.w.rdS d).toNat % 2 ^ 32) ((s.w.rdS d).toNat / 2 ^ 32 % 2 ^ 30)) }) ∧
  (∀ (c : Ctl) (base : SIdx) (off : BitVec 12) (s : State) (a : Nat), BarAt s base off a →
    let u : Use := { ssrc := [(base, luA c)], cls := some .st }
    Ready u s → ∃ t, exec (.bararr c base off) s = .next t ∧ RegsKept s t u ∧
      Issued s t { id := 0, cls := .st, sp := true, accs := [{ lane := 0, va := a, addr := a, n := 16 }], pc := s.w.p.pc, scalar := true, k := .bar .arrive }) ∧
  (∀ (c : Ctl) (d base : SIdx) (off : BitVec 12) (s : State) (a : Nat), BarAt s base off a →
    let u : Use := { ssrc := [(base, luA c), (d, luC c)], cls := some .st }
    Ready u s → ∃ t, exec (.barexp c d base off) s = .next t ∧ RegsKept s t u ∧
      Issued s t { id := 0, cls := .st, sp := true, accs := [{ lane := 0, va := a, addr := a, n := 16 }], pc := s.w.p.pc, scalar := true,
                   k := .bar (.expect ((s.w.rdS d).toNat % 2 ^ 32)) })

/-- R142, R143, R254: what the updates do to an object: a first arrival count of 0 means 1; the update that leaves no arrival and no
byte outstanding inverts PHASE and starts the next with the counts of BARINIT. -/
def Obligations.BarrierObjectRules : Prop :=
  ∀ (b : BarObj) (n ex : Nat),
    (b.upd (.init n ex) = { phase := false, evb := false, expb := ex, pendb := ex, arrcnt := max n 1, exparr := max n 1 }) ∧
    (1 < b.arrcnt ∨ 0 < b.pendb ∧ 0 < b.arrcnt → b.upd .arrive = { b with arrcnt := b.arrcnt - 1 }) ∧
    (b.arrcnt ≤ 1 → b.pendb = 0 → b.upd .arrive = { b with phase := !b.phase, arrcnt := b.exparr, pendb := b.expb }) ∧
    (b.arrcnt = 0 → b.pendb ≤ n → b.credit n false = { b with phase := !b.phase, arrcnt := b.exparr, pendb := b.expb }) ∧
    (n < b.pendb → b.credit n true = { b with pendb := b.pendb - n, evb := true })

/-- R254: BARWAIT waits until the object's PHASE differs from bit 0 of sD and then gives it; BARTEST gives the object's word, and .CLR
clears EVB. -/
def Sys2Proof.Stmt.BarrierReads : Prop :=
  (∀ (c : Ctl) (d base : SIdx) (off : BitVec 12) (s : State) (a : Nat), BarAt s base off a → BarSettled s a →
    Ready { ssrc := [(base, luA c), (d, luC c)], sdst := [d] } s →
    let b := BarObj.read (s.core s.w.core).sp a
    (b.phase = (s.w.rdS d).getLsbD 0 → Waits (.barwait c d base off) s .barrier) ∧
    (b.phase ≠ (s.w.rdS d).getLsbD 0 → ∃ t, exec (.barwait c d base off) s = .next t ∧ OnlyWarp s t ∧
      t.w.rdS d = (if d = 0 then 0 else if b.phase then 1 else 0) ∧ (∀ r, r ≠ d → r ≠ base → t.w.rdS r = s.w.rdS r) ∧ Passed s t)) ∧
  (∀ (c : Ctl) (d base : SIdx) (off : BitVec 12) (clr : Bool) (s : State) (a : Nat), BarAt s base off a → BarSettled s a →
    Ready { ssrc := [(base, luA c)], sdst := [d] } s →
    let b := BarObj.read (s.core s.w.core).sp a
    ∃ t, exec (.bartest c d base off clr) s = .next t ∧
      t.w.rdS d = (if d = 0 then 0 else BitVec.ofNat 64 (b.arrcnt * 2 ^ 32 + 2 * b.evb.toNat + b.phase.toNat)) ∧
      (∀ r, r ≠ d → r ≠ base → t.w.rdS r = s.w.rdS r) ∧ (clr = false → Passed s t ∧ t.cores = s.cores) ∧
      t.w.p.pc = s.w.p.pc + s.ilen ∧ t.mem = s.mem ∧ t.w.vregs = s.w.vregs ∧ t.w.masks = s.w.masks ∧ t.w.p.exec = s.w.p.exec ∧
      t.w.fpstat = s.w.fpstat ∧
      (clr = true → ∀ x, (x < a ∨ a + 16 ≤ x) → (t.core s.w.core).sp.get x = (s.core s.w.core).sp.get x))

/-- R254, R255: the instructions on barrier objects. -/
def Obligations.BarrierInstructions : Prop := Stmt.BarrierUpdates ∧ Stmt.BarrierReads

/-- R256, R257: a sync arrives once its implied fence holds; the cycle in which it issues is none of waiting (R34). A wave resumes the
warp past it (SYNC_RELEASE_WAVE); one that was stopped meanwhile issues it again and then completes. With more than one path it
raises 0x03. -/
def Obligations.Syncs : Prop :=
  ∀ (c : Ctl) (i : Instr) (sc : Scope) (s : State),
    (i = .bsync c ∧ sc = .b ∨ i = .gsync c ∧ sc = .g ∨ i = .lsync c ∧ sc = .d) →
    (s.w.paths ≠ [] → exec i s = .next (takeTrap s { code := 3 })) ∧
    (s.w.paths = [] → ∀ a, s.w.arrive = some a → a.go = true → ∃ t, exec i s = .next t ∧ OnlyWarp s t ∧ t.w.arrive = none ∧
      t.w.sregs = s.w.sregs ∧ Passed s t ∧ ∀ o ∈ t.w.ops, o.fills = []) ∧
    (s.w.paths = [] → ∀ a, s.w.arrive = some a → a.go = false → Waits i s .sync) ∧
    (s.w.paths = [] → s.w.arrive = none → fenceOk s s.w sc = false →
      exec i s = .next { s with w := { s.w.issueSync with pendSync := some sc, wait := .sync, stalled := true } }) ∧
    (s.w.paths = [] → s.w.arrive = none → s.w.real = true → fenceOk s s.w sc = true → ∃ t, exec i s = .next t ∧
      t.w.arrive = some { scope := sc, gen := syncGen s s.w sc } ∧ t.w.stalled = true ∧ t.w.p = s.w.p ∧ t.mem = s.mem ∧
      (s.w.pendSync = none → t.w.busy = 1 ∧ t.w.idle = 0))

/-- R258: PUBLISH names the open window that holds the address, in a publication page; it counts in st and its destination waits. -/
def Sys2Proof.Stmt.PublishIssues : Prop :=
  ∀ (c : Ctl) (d base : SIdx) (off : BitVec 12) (s : State) (pa : Nat) (pte : Word) (win : Nat),
    let u : Use := { ssrc := [(base, luA c)], sdst := [d], cls := some .st }
    let a := (s.w.rdS base + off.signExtend 64).toNat
    Ready u s → a < 2 ^ 56 → translate s s.w .load a = .ok pa pte → windowOf s s.w a = some win →
    (ptePubw pte = true → ∃ t, exec (.publish c d base off) s = .next t ∧ RegsKept s t u ∧ (d ≠ 0 → t.w.pendingS d = true) ∧
      Issued s t { id := 0, cls := .st, k := .publish win s.now, dst := .sca d, pc := s.w.p.pc }) ∧
    (ptePubw pte = false → exec (.publish c d base off) s = .next (takeTrap s { code := 5, taddr := a }))

/-- R135, R253, R258: fences and PUBLISH. -/
def Obligations.FencesAndPublication : Prop := Stmt.Fences ∧ Stmt.PublishIssues

/-- R84, R91, R92: TDEF and TNEW take a FREE name: FILLING, of the kind given, for this warp, with every row zero. -/
def Obligations.TileDefines : Prop :=
  (∀ (c : Ctl) (td : TileRef) (k : TKind) (s : State) (n : Nat), s.w.park = none → Ready { ssrc := tileSrc td (luB c) } s → Names s.w td n →
    (s.tile s.w.cluster n).st = .free → ∃ t, exec (.tdef c td k) s = .next t ∧ Passed s t ∧ OtherTiles s t n ∧
      (t.tile s.w.cluster n).st = .filling ∧ (t.tile s.w.cluster n).kind = k ∧ (t.tile s.w.cluster n).defw = s.w.idx ∧
      (t.tile s.w.cluster n).defb = s.w.id.block ∧ (t.tile s.w.cluster n).sealP = false ∧ (t.tile s.w.cluster n).void = false ∧
      (t.tile s.w.cluster n).data = [] ∧ (t.tile s.w.cluster n).parked = (s.tile s.w.cluster n).parked) ∧
  (∀ (c : Ctl) (h : HIdx) (k : TKind) (s : State) (n : Nat), s.w.park = none → Ready { sdst := [hS h] } s →
    (s.gang s.w.id.lid s.w.id.gang).newWait = [] → s.freeHead s.w.cluster (s.gang s.w.id.lid s.w.id.gang) = some n →
    ∃ t, exec (.tnew c h k) s = .next t ∧ Passed s t ∧
      OtherTiles s t n ∧ t.w.rdS (hS h) = (if hS h = 0 then 0 else BitVec.ofNat 64 (n - s.w.id.tnbase)) ∧
      (∀ r, r ≠ hS h → t.w.rdS r = s.w.rdS r) ∧ (t.tile s.w.cluster n).st = .filling ∧ (t.tile s.w.cluster n).kind = k ∧
      (t.tile s.w.cluster n).defw = s.w.idx ∧ (t.tile s.w.cluster n).data = [])

/-- R84, R88, R91: a TDEF of a name that is not FREE, a TREAD of a FREE or FILLING one and a TNEW with no FREE name, or with TNEWs recorded
before it, are recorded, and the warp parks with its program counter where it is. -/
def Sys2Proof.Stmt.TileParks : Prop :=
  (∀ (c : Ctl) (td : TileRef) (k : TKind) (s : State) (n : Nat), s.w.park = none → Ready { ssrc := tileSrc td (luB c) } s → Names s.w td n →
    (s.tile s.w.cluster n).st ≠ .free → ∃ t, exec (.tdef c td k) s = .next t ∧ t.w.p = s.w.p ∧ t.w.stalled = true ∧
      t.w.park.map Park.name = some n ∧ (t.tile s.w.cluster n).parked = (s.tile s.w.cluster n).parked ++ [recId s.w.key s.w.pid] ∧
      (t.tile s.w.cluster n).st = (s.tile s.w.cluster n).st) ∧
  (∀ (c : Ctl) (v : VIdx) (ta : TileRef) (row : BitVec 4) (s : State) (n : Nat), s.w.park = none → s.w.full = true →
    row.toNat + s.W / 16 ≤ 16 → s.w.portOf v = none →
    Ready { ssrc := tileSrc ta (luA c), vdst := [v], cls := some .tl, allLanes := true } s → Names s.w ta n →
    ((s.tile s.w.cluster n).st = .free ∨ (s.tile s.w.cluster n).st = .filling) →
    ∃ t, exec (.tread c v ta row) s = .next t ∧ t.w.p = s.w.p ∧ t.w.stalled = true ∧ t.w.park.map Park.name = some n ∧
      t.w.cnt .tl = s.w.cnt .tl + 1 ∧ (t.tile s.w.cluster n).parked = (s.tile s.w.cluster n).parked ++ [recId s.w.key s.w.pid]) ∧
  (∀ (c : Ctl) (h : HIdx) (k : TKind) (s : State), s.w.park = none → Ready { sdst := [hS h] } s →
    ((s.gang s.w.id.lid s.w.id.gang).newWait ≠ [] ∨ s.freeHead s.w.cluster (s.gang s.w.id.lid s.w.id.gang) = none) → ∃ t, exec (.tnew c h k) s = .next t ∧ t.w.p = s.w.p ∧
      t.w.park.isSome = true ∧ (t.gang s.w.id.lid s.w.id.gang).newWait = (s.gang s.w.id.lid s.w.id.gang).newWait ++ [recId s.w.key s.w.pid])

/-- R85, R87, R263, R265: TWRITE and TLOAD by the definer are outstanding writes of class tl; TSEAL sets SEALP, and the name is READY at
once where no write is outstanding. That a plane-form TLOAD gives its name the P kind when it issues is the model's choice (log 45): R83 and
R265 name no moment. -/
def Sys2Proof.Stmt.TileWrites : Prop :=
  (∀ (c : Ctl) (td : TileRef) (v : VIdx) (row : BitVec 4) (s : State) (n : Nat), s.w.full = true → row.toNat + s.W / 16 ≤ 16 →
    Ready { vsrc := [(v, luC c)], ssrc := tileSrc td (luB c), cls := some .tl, allLanes := true } s → Names s.w td n → Filling s n →
    ∃ t, exec (.twrite c td v row) s = .next t ∧
      RegsKept s t { vsrc := [(v, luC c)], ssrc := tileSrc td (luB c) } ∧ OtherTiles s t n ∧
      t.tile s.w.cluster n = { s.tile s.w.cluster n with writes := (s.tile s.w.cluster n).writes + 1 } ∧
      Issued s t { id := 0, cls := .tl, name := n, tag := (s.tile s.w.cluster n).defc, pc := s.w.p.pc,
                   k := .twrite row.toNat ((List.range s.w.W).flatMap fun L => leBytes 4 (s.w.lane v L).toNat) }) ∧
  (∀ (c : Ctl) (td : TileRef) (h : HIdx) (sp : Bool) (f : TLoadForm) (s : State) (n : Nat) (accs : List Acc),
    let u : Use := { ssrc := tileSrc td (luB c) ++ hRun h 2, cls := some .tl }
    Ready u s → Names s.w td n → Filling s n →
    checkElems s s.w .load sp (unitElems (units (s.w.rdS (hS h)) (s.w.rdS (hS h + 1)) f)) = .ok accs →
    ∃ t, exec (.tload c td h sp f) s = .next t ∧ RegsKept s t u ∧ OtherTiles s t n ∧
      (t.tile s.w.cluster n).writes = (s.tile s.w.cluster n).writes + 1 ∧
      (t.tile s.w.cluster n).kind = (match f with
        | .row => (s.tile s.w.cluster n).kind
        | .plane _ j => .pi j) ∧
      Issued s t { id := 0, cls := .tl, sp := sp, accs := accs, name := n, tag := (s.tile s.w.cluster n).defc, pc := s.w.p.pc,
                   k := .tload (match f with
                     | .row => 0
                     | .plane _ j => j.toNat) }) ∧
  (∀ (c : Ctl) (td : TileRef) (s : State) (n : Nat), Ready { ssrc := tileSrc td (luB c) } s → Names s.w td n → Filling s n →
    ((s.tile s.w.cluster n).writes ≠ 0 → ∃ t, exec (.tseal c td) s = .next t ∧ Passed s t ∧ OtherTiles s t n ∧
      t.tile s.w.cluster n = { s.tile s.w.cluster n with sealP := true }) ∧
    ((s.tile s.w.cluster n).writes = 0 → (s.tile s.w.cluster n).parked = [] → ∃ t, exec (.tseal c td) s = .next t ∧ Passed s t ∧
      OtherTiles s t n ∧ (t.tile s.w.cluster n).st = .ready ∧ (t.tile s.w.cluster n).void = false ∧
      (t.tile s.w.cluster n).data = (s.tile s.w.cluster n).data))

/-- R84, R263, R264, R265: reads of a READY name are outstanding operations of class tl; TKILL lets it drain, or frees it where no read is
outstanding; TSTAT reads the status word without changing any name. -/
def Sys2Proof.Stmt.TileReads : Prop :=
  (∀ (c : Ctl) (v : VIdx) (ta : TileRef) (row : BitVec 4) (s : State) (n : Nat), s.w.park = none → s.w.full = true →
    row.toNat + s.W / 16 ≤ 16 → s.w.portOf v = none →
    let u : Use := { ssrc := tileSrc ta (luA c), vdst := [v], cls := some .tl, allLanes := true }
    Ready u s → Names s.w ta n → (s.tile s.w.cluster n).st = .ready → allLanes s.W ≠ 0 →
    ∃ t, exec (.tread c v ta row) s = .next t ∧ RegsKept s t u ∧ OtherTiles s t n ∧ t.w.pendingV v = true ∧
      t.tile s.w.cluster n = { s.tile s.w.cluster n with reads := (s.tile s.w.cluster n).reads + 1 } ∧
      Issued s t { id := 0, cls := .tl, k := .tread row.toNat, dst := .vec v false, name := n, pc := s.w.p.pc }) ∧
  (∀ (c : Ctl) (ta : TileRef) (h : HIdx) (sp plane : Bool) (s : State) (n : Nat) (accs : List Acc), s.w.park = none →
    let u : Use := { ssrc := tileSrc ta (luA c) ++ hRun h 2, cls := some .tl }
    Ready u s → Names s.w ta n → (s.tile s.w.cluster n).st = .ready →
    checkElems s s.w .store sp (unitElems (units (s.w.rdS (hS h)) (s.w.rdS (hS h + 1))
      (storeForm plane (s.tile s.w.cluster n).kind))) = .ok accs →
    ∃ t, exec (.tstore c ta h sp plane) s = .next t ∧ RegsKept s t u ∧ OtherTiles s t n ∧
      t.tile s.w.cluster n = { s.tile s.w.cluster n with reads := (s.tile s.w.cluster n).reads + 1 } ∧
      Issued s t { id := 0, cls := .tl, sp := sp, accs := accs, name := n, pc := s.w.p.pc,
                   k := .tstore (s.w.rdS (hS h)).toNat (s.w.rdS (hS h + 1)).toNat plane }) ∧
  (∀ (c : Ctl) (ta : TileRef) (s : State) (n : Nat), Ready { ssrc := tileSrc ta (luA c) } s → Names s.w ta n →
    ((s.tile s.w.cluster n).st = .ready → (s.tile s.w.cluster n).reads ≠ 0 → ∃ t, exec (.tkill c ta) s = .next t ∧ Passed s t ∧
      OtherTiles s t n ∧ t.tile s.w.cluster n = { s.tile s.w.cluster n with st := .draining }) ∧
    ((s.tile s.w.cluster n).st = .ready → (s.tile s.w.cluster n).reads = 0 → (s.tile s.w.cluster n).parked = [] →
      ∃ t, exec (.tkill c ta) s = .next t ∧ Passed s t ∧ OtherTiles s t n ∧
      (t.tile s.w.cluster n).st = .free) ∧
    ((s.tile s.w.cluster n).st ≠ .ready → exec (.tkill c ta) s = .next (takeTrap s { code := 7, sub := 4 }))) ∧
  (∀ (c : Ctl) (h : HIdx) (ta : TileRef) (s : State) (n : Nat), Ready { ssrc := tileSrc ta (luA c), sdst := [hS h] } s → Names s.w ta n →
    ∃ t, exec (.tstat c h ta) s = .next t ∧ OnlyWarp s t ∧ Passed s t ∧
      t.w.rdS (hS h) = (if hS h = 0 then 0 else tileStatus s s.w.cluster n) ∧
      (∀ r, r ≠ hS h → KeptS (tileSrc ta (luA c)) r → t.w.rdS r = s.w.rdS r)) ∧
  (∀ (c : Ctl) (d : VIdx) (sa : SIdx) (row : BitVec 4) (b cc : VIdx) (ms : MIdx) (s : State) (n : Nat), s.w.park = none → s.w.full = true →
    row.toNat + s.W / 16 ≤ 16 → s.w.portOf d = none → s.w.activeMask ms ≠ 0 → allLanes s.W ≠ 0 →
    let u : Use := { vsrc := [(b, luB c), (cc, luC c), (d, false)], ssrc := [(sa, luA c)], vdst := [d], ms := ms, cls := some .tl }
    Ready u s → Names s.w (.reg sa) n → (s.tile s.w.cluster n).st = .ready →
    ∃ t o, exec (.scacc c d (.tile sa row) (.v b) (.v cc) ms) s = .next t ∧ RegsKept s t u ∧ t.w.pendingV d = true ∧
      (t.tile s.w.cluster n).reads = (s.tile s.w.cluster n).reads + 1 ∧ o ∈ t.w.ops ∧ o.id = s.w.opNext ∧ o.cls = .tl ∧ o.name = n ∧
      o.k = .scacc row.toNat (lanes s.W fun L => s.w.lane b L) (lanes s.W fun L => s.w.lane cc L) (lanes s.W fun L => s.w.lane d L) (s.w.activeMask ms) s.w.p.hdr.addr s.w.inv.isSome)

/-- R262 to R265: rows and whole tiles, written and read. -/
def Obligations.TileRows : Prop := Stmt.TileWrites ∧ Stmt.TileReads

/-- R86, R87: what a write or a TSEAL meets at a name it may not write: 0x07 with DEFINER, SEALED or STATE; a former definer's write to a
VOID name is discarded. -/
def Sys2Proof.Stmt.TileStateFaults : Prop :=
  ∀ (c : Ctl) (td : TileRef) (s : State) (n : Nat), Ready { ssrc := tileSrc td (luB c) } s →
    (¬ (∃ m, Names s.w td m) → exec (.tseal c td) s = .next (takeTrap s { code := 7, sub := 1 })) ∧
    (Names s.w td n →
      let t := s.tile s.w.cluster n
      let mine := t.defw = s.w.idx ∧ t.defb = s.w.id.block
      (t.st = .filling → ¬ mine → exec (.tseal c td) s = .next (takeTrap s { code := 7, sub := 2 })) ∧
      (t.st = .filling → mine → t.sealP = true → exec (.tseal c td) s = .next (takeTrap s { code := 7, sub := 3 })) ∧
      ((t.st = .free ∨ t.st = .draining ∨ t.st = .ready ∧ ¬ (t.void = true ∧ mine)) →
        exec (.tseal c td) s = .next (takeTrap s { code := 7, sub := 4 })) ∧
      (t.st = .ready → t.void = true → mine → ∃ t', exec (.tseal c td) s = .next t' ∧ OnlyWarp s t' ∧ Passed s t'))

/-- R85 to R89, R260: tile operations that wait at a name, and those a name's state forbids. -/
def Obligations.TileParksAndFaults : Prop := Stmt.TileParks ∧ Stmt.TileStateFaults

namespace Sys2Proof.Stmt
open Sys2Proof.Machine

/-! ## Leases and engine commands (spec/07, spec/12) -/

/-- No session's trace is armed, so that no event writes to a ring in memory (R406). -/
def NoTrace (s : State) : Prop := s.io.perch.trCtl.getLsbD 0 = false
/-- A scalar result: the destination holds it, the other scalars stay, and the instruction has issued and changed nothing else that a
rule does not name. -/
def Gives (s t : State) (d : SIdx) (v : Word) : Prop :=
  t.w.rdS d = (if d = 0 then 0 else v) ∧ (∀ r, r ≠ d → t.w.rdS r = s.w.rdS r) ∧ Passed s t
/-- A lease of the gang under its handle (R154, R155). -/
def Holds (s : State) (h : HIdx) (l : Lease) : Prop := leaseOf s s.w (s.w.rdS (hS h)) = some l
/-- The lease a state holds under the handle in a register of the issuer's first state. -/
def leaseAfter (s t : State) (h : HIdx) : Option Lease := t.lease? s.w.cluster (s.w.rdS (hS h)).toNat
/-- A new lease of the acting warp's gang: waking, its queue empty (R155, R160). -/
def NewLease (s : State) (w : Warp) (l : Lease) (k : EngClass) (sh : Bool) (inst : Nat) : Prop :=
  l.cls = k ∧ l.sh = sh ∧ l.inst = inst ∧ l.lid = w.id.lid ∧ l.gang = w.id.gang ∧ l.st = .waking ∧ l.queue = [] ∧ l.gone = false ∧
  l.wakeAt = s.now + (match k with
    | .mx => if l.kept then 40 else 2000
    | .dm => 250
    | .cv => 150
    | .cl => 1000)

/-- R268: what the issue of a command does: the command stands last in its lease's queue with its operands as they were, it is
outstanding in its class, a tile it writes has a write more and each tile it reads a read more. -/
def CommandIssues (i : Instr) (h : HIdx) (k : EngClass) (cls : Cls) (n : Nat) (u : Use) (full : Bool) (p : State → Lease → Plan)
    (eff : State → Lease → Lease) (pre : State → Lease → Prop) (post : State → State → Prop) : Prop :=
  ∀ (s : State) (l : Lease) (accs : List (List Acc)),
    let u' : Use := { u with ssrc := u.ssrc ++ hRun h n, cls := some cls }
    let cl := s.w.cluster
    s.w.park = none → (full = true → s.w.full = true) → Ready u' s → Holds s h l → l.cls = k → (l.st = .live ∨ l.st = .waking) →
    l.queue.length + parkedCmds s cl (s.w.rdS (hS h)).toNat < Config.commandQueueCap → pre s l →
    (∀ m ∈ (p s l).srcs, (s.tile cl m).st = .ready) → (∀ m, (p s l).dst = some m → Filling s m) →
    checkSpans s s.w ((p s l).spans ++ (p s l).bar.toList.map fun b => ⟨.load, true, 64, b.1, 16, 16⟩) = .ok accs →
    ∃ t q, exec i s = .next t ∧ RegsKept s t u' ∧
      Issued s t { id := 0, cls := cls, k := .cmd, pc := s.w.p.pc, name := (s.w.rdS (hS h)).toNat } ∧
      leaseAfter s t h = some { eff s l with queue := l.queue ++ [q] } ∧
      q.c = (p s l).c ∧ q.regs = (p s l).regs ∧ q.warp = s.w.key ∧ q.op = s.w.opNext ∧ q.bar = (p s l).bar ∧ q.num = (p s l).num ∧
      (∀ m, (p s l).dst = some m → t.tile cl m = { s.tile cl m with writes := (s.tile cl m).writes + 1 }) ∧
      (∀ m ∈ (p s l).srcs, t.tile cl m = { s.tile cl m with reads := (s.tile cl m).reads + 1 }) ∧ post s t

def noPost (_s _t : State) : Prop := True
/-- The barrier object a form with BAR credits: the scratchpad address of a scalar, and the bytes. -/
def barIf (bar : Bool) (a : Word) (n : Nat) : Option (Nat × Nat) := if bar then some (a.toNat, n) else none
/-- Scalars of an operand run (R260). -/
def runOf (w : Warp) (h : HIdx) (n : Nat) : List Word := (List.range n).map fun i => w.rdS (hS h + BitVec.ofNat 7 i)
/-- A copy length of R274: a multiple of 8 from 8 to 2^24. -/
def goodLen (v : Word) : Prop := v ≠ 0 ∧ v.toNat ≤ 2 ^ 24 ∧ v.toNat % 8 = 0
/-- The active lanes in ascending order. -/
def activeLanes (w : Warp) : List Nat := (List.range w.W).filter fun L => (w.activeMask 0).getLsbD L
/-- A run of bytes of a data-motion command. -/
def runFrom (sp : Bool) (a len : Nat) : Span := ⟨.load, sp, 64, a, len, 8⟩
def runInto' (sp : Bool) (a len : Nat) : Span := ⟨.store, sp, 64, a, len, 8⟩

end Sys2Proof.Stmt

/-- R157, R158, R159, R390: LEASE presents its request, which takes its place by priority class and then by arrival; it waits where the
queue is full; a partition that is barred gives CODE 3 (R390). A grant gives a fresh lease and completes the LEASE with its handle
(R153, R160). LEASET issues at once and is decided at the end of its cycle, after every waiting request (R159, R165): it is granted, or fails
with CODE 1 or 2; CODE 3 comes at once. -/
def Sys2Proof.Stmt.LeaseRequests : Prop :=
  (∀ (c : Ctl) (h : HIdx) (k : EngClass) (sh : Bool) (s : State), Ready { sdst := [hS h] } s →
    (∀ r ∈ (s.cluster s.w.cluster).queue, r.warp ≠ s.w.key) → leaseBarred s s.w.id.part = false →
    (Config.leaseQueueCap ≤ (s.cluster s.w.cluster).queue.length → Waits (.lease c h k sh) s .queue) ∧
    ((s.cluster s.w.cluster).queue.length < Config.leaseQueueCap → ∃ l₁ l₂,
      let r : LReq := { warp := s.w.key, dst := hS h, cls := k, sh := sh, prio := (s.launch s.w.id.lid).prio, since := s.now,
                        ilen := s.ilen, fresh := true }
      (s.cluster s.w.cluster).queue = l₁ ++ l₂ ∧ (∀ x ∈ l₁, x.prio ≤ r.prio) ∧ (∀ x ∈ l₂.head?, r.prio < x.prio) ∧
      exec (.lease c h k sh) s = .next { s with
        clusters := s.clusters.put s.w.cluster { s.cluster s.w.cluster with queue := l₁ ++ r :: l₂ },
        w := { s.w with wait := .queue, stalled := true } })) ∧
  (∀ (c : Ctl) (h : HIdx) (k : EngClass) (sh : Bool) (i : Instr) (s : State), (i = .lease c h k sh ∨ i = .leaset c h k sh) →
    Ready { sdst := [hS h] } s → (∀ r ∈ (s.cluster s.w.cluster).queue, r.warp ≠ s.w.key) → leaseBarred s s.w.id.part = true →
    quotaNew s s.w.id.part = [] → ∃ t, exec i s = .next t ∧ ScalarsOnly s t ∧ Gives s t (hS h) 0x30100) ∧
  (∀ (s : State) (r : LReq) (p : Pick) (w : Warp), journalFull s = false → nextGrant s s.arg.cluster = some (r, p) →
    s.warp? r.warp = some w → w.cluster = s.arg.cluster →
    let hd := handleWord (s.cluster s.arg.cluster).gen r.cls r.sh p.inst
    ∃ t l w', exec .leaseGrant s = .next t ∧ (t.cluster s.arg.cluster).queue = (s.cluster s.arg.cluster).queue.erase r ∧
      t.lease? s.arg.cluster hd.toNat = some l ∧ NewLease s w l r.cls r.sh p.inst ∧
      t.warp? r.warp = some w' ∧ w'.rdS r.dst = (if r.dst = 0 then 0 else hd) ∧ w'.p.pc = w.p.pc + r.ilen) ∧
  (∀ (c : Ctl) (h : HIdx) (k : EngClass) (sh : Bool) (s : State), Ready { sdst := [hS h] } s → leaseBarred s s.w.id.part = false →
    ∃ t, exec (.leaset c h k sh) s = .next t ∧ Passed s t ∧ (∀ r, r ≠ hS h → t.w.rdS r = s.w.rdS r) ∧ (t.cluster s.w.cluster).queue = (s.cluster s.w.cluster).queue ∧
      (t.cluster s.w.cluster).leases = (s.cluster s.w.cluster).leases ∧
      ∃ r : LReq, (t.cluster s.w.cluster).tries = (s.cluster s.w.cluster).tries ++ [r] ∧
        r.warp = s.w.key ∧ r.dst = hS h ∧ r.cls = k ∧ r.sh = sh) ∧
  (∀ (s : State) (r : LReq) (l : List LReq) (w : Warp),
    let cl := s.arg.cluster
    let b := (scan s cl (waiting s cl) []).2
    s.betweenCycles cl = true → (s.cluster cl).tries = r :: l → (nextGrant s cl = none ∨ journalFull s = true) →
    s.warp? r.warp = some w → w.cluster = cl → w.life = .live →
    (∀ p, canGrant s cl w r.cls r.sh b = some p → journalFull s = false →
      let hd := handleWord (s.cluster cl).gen r.cls r.sh p.inst
      ∃ t x w', exec .leaseGrant s = .next t ∧ (t.cluster cl).tries = l ∧ t.lease? cl hd.toNat = some x ∧
        NewLease s w x r.cls r.sh p.inst ∧ t.warp? r.warp = some w' ∧ w'.rdS r.dst = (if r.dst = 0 then 0 else hd) ∧ w'.p = w.p) ∧
    ((canGrant s cl w r.cls r.sh b = none ∨ journalFull s = true) →
      ∃ t w', exec .leaseGrant s = .next t ∧ (t.cluster cl).tries = l ∧ (t.cluster cl).leases = (s.cluster cl).leases ∧
        t.warp? r.warp = some w' ∧ w'.p = w.p ∧
        w'.rdS r.dst = (if r.dst = 0 then 0
          else if Config.leaseQueueCap ≤ ((s.cluster cl).queue.filter fun x => !x.fresh || decide (x.place < r.place)).length
            then 0x20100 else 0x10100)))

/-- R155, R156, R161, R267 (that AWAKE reads 0 for a VACATING lease whose wake latency is over is the model's choice, log 51): VACATE refuses new commands, lets those queued or parked on a tile run, and puts an instance that has none left
into retention; LSTAT gives the lease's state and clears ABORTED and POISON; an INVALID handle raises 0x09 at VACATE. -/
def Sys2Proof.Stmt.LeaseReleaseAndStatus : Prop :=
  (∀ (c : Ctl) (h : HIdx) (s : State), Ready { ssrc := [(hS h, false)] } s →
    ((leaseOf s s.w (s.w.rdS (hS h)) = none ∨ ∃ l, Holds s h l ∧ l.st = .vacating) →
      exec (.vacate c h) s = .next (takeTrap s { code := 9, sub := 1 })) ∧
    (∀ l, Holds s h l → (l.st = .live ∨ l.st = .waking) → l.queue ≠ [] → ∃ t, exec (.vacate c h) s = .next t ∧ Passed s t ∧
      leaseAfter s t h = some { l with st := .vacating, vacNow := true }) ∧
    (∀ l, Holds s h l → (l.st = .live ∨ l.st = .waking) → parkedCmds s s.w.cluster (s.w.rdS (hS h)).toNat ≠ 0 →
      ∃ t, exec (.vacate c h) s = .next t ∧ Passed s t ∧ leaseAfter s t h = some { l with st := .vacating, vacNow := true }) ∧
    (∀ l, Holds s h l → (l.st = .live ∨ l.st = .waking) → l.queue = [] → parkedCmds s s.w.cluster (s.w.rdS (hS h)).toNat = 0 → NoTrace s →
      onArray (s.cluster s.w.cluster) (s.w.rdS (hS h)).toNat = [] →
      ∃ t, exec (.vacate c h) s = .next t ∧ Passed s t ∧ leaseAfter s t h = none ∧
        ∃ r ∈ (t.cluster s.w.cluster).retained, r.cls = l.cls ∧ r.inst = l.inst ∧ r.lid = l.lid ∧ r.gang = l.gang ∧ r.eng = l.eng ∧
          r.since = s.now) ∧
    (∀ l, Holds s h l → l.st = .evicted → l.stopping = false → ∃ t, exec (.vacate c h) s = .next t ∧ Passed s t ∧ leaseAfter s t h = none)) ∧
  (∀ (c : Ctl) (d : SIdx) (h : HIdx) (s : State), Ready { ssrc := [(hS h, false)], sdst := [d] } s →
    (leaseOf s s.w (s.w.rdS (hS h)) = none → ∃ t, exec (.lstat c d h) s = .next t ∧ Gives s t d 3 ∧ t.clusters = s.clusters) ∧
    (∀ l, Holds s h l → ∃ (t : State) (awake : Bool), exec (.lstat c d h) s = .next t ∧
      (awake = true ↔ l.st ≠ .vacating ∧ l.wakeAt ≤ s.now) ∧
      Gives s t d (BitVec.ofNat 64 ((match l.st with
        | .waking | .live => l.kept.toNat
        | .evicted => 2
        | .vacating => 3) + 4 * l.poison.toNat + 8 * awake.toNat + 16 * l.aborted.toNat)) ∧
      leaseAfter s t h = some { l with aborted := false, poison := false }))

/-- R153 to R161, R266, R267: leases, from request to release. -/
def Obligations.Leases : Prop := Stmt.LeaseRequests ∧ Stmt.LeaseReleaseAndStatus

/-- R268 to R273: the matrix commands issue. -/
def Sys2Proof.Stmt.MatrixCommands : Prop :=
  (∀ (c : Ctl) (h : HIdx) (ta : TileRef) (kb : BitVec 4) (nb : BitVec 3) (f : BFmt),
    CommandIssues (.mxloadb c h ta kb nb f) h .mx .mx 1 { ssrc := tileSrc ta (luA c) } true
      (fun s _ => { c := .loadb (nameAt s.w ta) kb.toNat nb.toNat f, regs := runOf s.w h 1, srcs := [nameAt s.w ta] })
      (fun _ l => { l with eng := { l.eng with bfmt := some f } })
      (fun s l => (∃ n, Names s.w ta n) ∧ height (bBytes f) * (kb.toNat + 1) ≤ kCap l) noPost) ∧
  (∀ (c : Ctl) (h : HIdx) (ta : TileRef) (cnt : BitVec 4) (r : BitVec 2) (f : AFmt),
    CommandIssues (.mxrun c h ta cnt r f) h .mx .mx 2 { ssrc := tileSrc ta (luA c) } true
      (fun s _ => { c := .run (nameAt s.w ta) (cnt.toNat + 1) r.toNat f, regs := runOf s.w h 2,
                    srcs := (List.range (cnt.toNat + 1)).map fun i => nameAt s.w ta + i })
      (fun _ l => l)
      (fun s l => (∃ n, Names s.w ta n ∧ n + cnt.toNat + 1 ≤ s.w.id.tnbase + s.w.id.tncount) ∧ pairs f l.eng.bfmt = true ∧
        height (aBytes f) * ((s.w.rdS (hS h + 1)).toNat % 16 + cnt.toNat + 1) ≤ kCap l) noPost) ∧
  (∀ (c : Ctl) (td : TileRef) (h : HIdx) (nb : BitVec 3) (r : BitVec 2) (z bar : Bool),
    CommandIssues (.mxdrain c td h nb r z bar) h .mx .mx (if bar then 2 else 1) { ssrc := tileSrc td (luB c) } true
      (fun s _ => { c := .drain (nameAt s.w td) r.toNat nb.toNat z bar, regs := runOf s.w h 2, dst := some (nameAt s.w td),
                    bar := barIf bar (s.w.rdS (hS h + 1)) 1024 })
      (fun _ l => l) (fun s _ => ∃ n, Names s.w td n) noPost) ∧
  (∀ (c : Ctl) (h : HIdx) (r : BitVec 2),
    CommandIssues (.mxzero c h r) h .mx .mx 1 {} true (fun s _ => { c := .zero r.toNat, regs := runOf s.w h 1 })
      (fun _ l => l) (fun _ _ => True) noPost) ∧
  (∀ (c : Ctl) (h : HIdx),
    CommandIssues (.cvshape c h) h .cv .mx 4 {} false (fun s _ => { c := .shape, regs := runOf s.w h 4 })
      (fun s l => { l with binding := some (s.w.rdS (hS h + 1)).toNat,
                           eng := { l.eng with shape := some (s.w.rdS (hS h + 2), s.w.rdS (hS h + 3)) } })
      (fun s _ => ∃ m, leaseOf s s.w (s.w.rdS (hS h + 1)) = some m ∧ m.cls = .mx ∧ m.st ≠ .vacating ∧
        shapeBad (s.w.rdS (hS h + 2)) (s.w.rdS (hS h + 3)) (kCap m) = false) noPost) ∧
  (∀ (c : Ctl) (h : HIdx) (r : BitVec 2) (f : AFmt) (sp : Bool),
    CommandIssues (.mxconv c h r f sp) h .cv .mx 2 {} true
      (fun s l =>
        let ab := l.eng.shape.getD (0, 0)
        { c := .conv r.toNat f sp, regs := runOf s.w h 2 ++ [ab.1, ab.2, BitVec.ofNat 64 (l.binding.getD 0)],
          spans := convSpans (s.w.rdS (hS h + 1)).toNat (shapeOf ab.1 ab.2) (aBytes f) sp })
      (fun _ l => l)
      (fun s l => ∃ a b m, l.eng.shape = some (a, b) ∧ boundMx s s.w l = some m ∧ pairs f m.eng.bfmt = true ∧
        (shapeOf a b).ch * aBytes f ≤ (shapeOf a b).pix) noPost)

/-- R260, R268, R274: the data-motion commands issue; DMGATHER and DMSCATTER do nothing where no lane is active. -/
def Sys2Proof.Stmt.DataMotionCommands : Prop :=
  (∀ (c : Ctl) (h : HIdx) (k : DmCtl),
    CommandIssues (.dmcopy c h k) h .dm .dm (if k.bar then 5 else 4) {} false
      (fun s _ =>
        let len := s.w.rdS (hS h + 3)
        { c := .copy k, regs := runOf s.w h 4, dsts := 1, bar := barIf k.bar (s.w.rdS (hS h + 4)) len.toNat,
          spans := [runFrom k.sps (s.w.rdS (hS h + 1)).toNat len.toNat, runInto' k.spd (s.w.rdS (hS h + 2)).toNat len.toNat] })
      (fun _ l => l) (fun s _ => goodLen (s.w.rdS (hS h + 3))) noPost) ∧
  (∀ (c : Ctl) (h : HIdx) (spd bar : Bool),
    CommandIssues (.dmfill c h spd bar) h .dm .dm (if bar then 5 else 4) {} false
      (fun s _ =>
        let len := s.w.rdS (hS h + 2)
        { c := .fill spd bar, regs := runOf s.w h 4, dsts := 1, bar := barIf bar (s.w.rdS (hS h + 4)) len.toNat,
          spans := [runInto' spd (s.w.rdS (hS h + 1)).toNat len.toNat] })
      (fun _ l => l) (fun s _ => goodLen (s.w.rdS (hS h + 2))) noPost) ∧
  (∀ (c : Ctl) (h : HIdx) (v : VIdx) (n : BitVec 4) (k : DmCtl),
    CommandIssues (.dmgather c h v n k) h .dm .dm (if k.bar then 4 else 3) { vsrc := [(v, luC c)] } false
      (fun s _ =>
        let b := 8 * 2 ^ n.toNat
        { c := .gather (lanes s.W (s.w.lane v)) n.toNat k, regs := runOf s.w h 3, dsts := (activeLanes s.w).length,
          bar := barIf k.bar (s.w.rdS (hS h + 3)) (b * (activeLanes s.w).length),
          spans := ((activeLanes s.w).map fun L => ⟨.load, k.sps, L, (s.w.rdS (hS h + 1) + (s.w.lane v L).signExtend 64).toNat, b, 8⟩) ++
            (activeLanes s.w).map fun L => ⟨.store, k.spd, L, (s.w.rdS (hS h + 2) + BitVec.ofNat 64 (L * b)).toNat, b, 8⟩ })
      (fun _ l => l) (fun s _ => s.w.activeMask 0 ≠ 0) noPost) ∧
  (∀ (c : Ctl) (h : HIdx) (v : VIdx) (n : BitVec 4) (k : DmCtl),
    CommandIssues (.dmscatter c h v n k) h .dm .dm (if k.bar then 4 else 3) { vsrc := [(v, luC c)] } false
      (fun s _ =>
        let b := 8 * 2 ^ n.toNat
        { c := .scatter (lanes s.W (s.w.lane v)) n.toNat k, regs := runOf s.w h 3, dsts := (activeLanes s.w).length,
          bar := barIf k.bar (s.w.rdS (hS h + 3)) (b * (activeLanes s.w).length),
          spans := ((activeLanes s.w).map fun L => ⟨.load, k.sps, L, (s.w.rdS (hS h + 1) + BitVec.ofNat 64 (L * b)).toNat, b, 8⟩) ++
            (activeLanes s.w).map fun L => ⟨.store, k.spd, L, (s.w.rdS (hS h + 2) + (s.w.lane v L).signExtend 64).toNat, b, 8⟩ })
      (fun _ l => l) (fun s _ => s.w.activeMask 0 ≠ 0) noPost) ∧
  (∀ (c : Ctl) (h : HIdx) (v : VIdx) (n : BitVec 4) (k : DmCtl) (i : Instr) (s : State),
    (i = .dmgather c h v n k ∨ i = .dmscatter c h v n k) → s.w.activeMask 0 = 0 → Ready { vsrc := [(v, luC c)] } s →
    ∃ t, exec i s = .next t ∧ OnlyWarp s t ∧ RegsKept s t { vsrc := [(v, luC c)] } ∧ t.w.ops = s.w.ops ∧ t.w.p.pc = s.w.p.pc + s.ilen)

/-- R268 to R274: commands of the MX, CV and DM engines. -/
def Obligations.EngineCommands : Prop := Stmt.MatrixCommands ∧ Stmt.DataMotionCommands

/-- R275: the collectives issue, each as the next of its tag on the die; a tag that another gang uses raises 0x09 TAG. -/
def Sys2Proof.Stmt.CollectiveCommands : Prop :=
  (∀ (c : Ctl) (h : HIdx) (tag : BitVec 8) (o : ClOp) (ty : ClTy) (bar : Bool) (i : Instr) (cmd : Cmd) (root : Bool) (blocks : State → Nat),
    ((i = .clreduce c h tag o ty bar ∧ cmd = .reduce tag.toNat o ty bar ∧ root = false ∧ blocks = fun _ => 1) ∨
     (i = .clgather c h tag bar ∧ cmd = .gatherC tag.toNat bar ∧ root = false ∧ blocks = fun s => nranks s s.w) ∨
     (i = .clbcast c h tag bar ∧ cmd = .bcast tag.toNat bar ∧ root = true ∧ blocks = fun _ => 1)) →
    let n := 4 + root.toNat
    CommandIssues i h .cl .cl (n + bar.toNat) {} false
      (fun s _ =>
        let len := 4 * (s.w.rdS (hS h + 3)).toNat
        { c := cmd, regs := runOf s.w h n, dsts := 1, num := tagNum s s.w tag.toNat,
          bar := barIf bar (s.w.rdS (hS h + BitVec.ofNat 7 n)) (len * blocks s),
          spans := (if root = false ∨ s.w.rdS (hS h + 4) = BitVec.ofNat 64 s.w.id.rank then
              [⟨.load, false, 64, (s.w.rdS (hS h + 1)).toNat, len, 4⟩] else []) ++
            [⟨.store, false, 64, (s.w.rdS (hS h + 2)).toNat, len * blocks s, 4⟩] })
      (fun _ l => l)
      (fun s _ => s.w.rdS (hS h + 3) ≠ 0 ∧ (s.w.rdS (hS h + 3)).toNat ≤ 2 ^ 26 ∧
        (root = true → (s.w.rdS (hS h + 4)).toNat < nranks s s.w) ∧ tagTaken s s.w tag.toNat = false)
      (fun s t => (t.launch s.w.id.lid).tags.get? (256 * s.w.die + tag.toNat) = some (s.w.id.gang, tagNum s s.w tag.toNat + 1))) ∧
  (∀ (c : Ctl) (h : HIdx) (tag : BitVec 8) (bar : Bool) (s : State) (l : Lease), s.w.park = none →
    Ready { ssrc := hRun h (4 + bar.toNat), cls := some .cl } s → Holds s h l → l.cls = .cl → l.st ≠ .vacating →
    s.w.rdS (hS h + 3) ≠ 0 → (s.w.rdS (hS h + 3)).toNat ≤ 2 ^ 26 →
    (∃ g n, (s.launch s.w.id.lid).tags.get? (256 * s.w.die + tag.toNat) = some (g, n) ∧ g ≠ s.w.id.gang) →
    exec (.clgather c h tag bar) s = .next (takeTrap s { code := 9, sub := 5 }))

/-- R155, R261, R268, R274: what a command finds wrong: exec not full, 0x03; a handle that names no lease of its class that takes
commands, 0x09 HANDLE; a B format not of a pair, PAIR; a length of zero or too long, SHAPE; one no multiple of 8, 0x06. -/
def Sys2Proof.Stmt.CommandFaults : Prop :=
  (∀ (c : Ctl) (h : HIdx) (r : BitVec 2) (s : State), s.w.park = none →
    (s.w.full = false → exec (.mxzero c h r) s = .next (takeTrap s { code := 3 })) ∧
    (s.w.full = true → Ready { ssrc := hRun h 1, cls := some .mx } s →
      (∀ l, Holds s h l → l.cls ≠ .mx ∨ l.st = .vacating) → exec (.mxzero c h r) s = .next (takeTrap s { code := 9, sub := 1 }))) ∧
  (∀ (c : Ctl) (h : HIdx) (n : BitVec 12) (cnt : BitVec 4) (r : BitVec 2) (f : AFmt) (s : State) (l : Lease), s.w.park = none →
    s.w.full = true → Ready { ssrc := hRun h 2, cls := some .mx } s → n.toNat + cnt.toNat + 1 ≤ s.w.id.tncount →
    Holds s h l → l.cls = .mx → l.st ≠ .vacating → pairs f l.eng.bfmt = false →
    exec (.mxrun c h (.name n) cnt r f) s = .next (takeTrap s { code := 9, sub := 2 })) ∧
  (∀ (c : Ctl) (h : HIdx) (k : DmCtl) (s : State) (l : Lease), s.w.park = none →
    Ready { ssrc := hRun h (if k.bar then 5 else 4), cls := some .dm } s → Holds s h l → l.cls = .dm → l.st ≠ .vacating →
    let len := s.w.rdS (hS h + 3)
    ((len = 0 ∨ 2 ^ 24 < len.toNat) → exec (.dmcopy c h k) s = .next (takeTrap s { code := 9, sub := 4 })) ∧
    (len ≠ 0 → len.toNat ≤ 2 ^ 24 → len.toNat % 8 ≠ 0 → exec (.dmcopy c h k) s = .next (takeTrap s { code := 6 })))

/-- R261, R268, R275: collectives, and commands that a check refuses. -/
def Obligations.CollectivesAndFaults : Prop := Stmt.CollectiveCommands ∧ Stmt.CommandFaults

namespace Sys2Proof.Stmt
open Sys2Proof.Machine

/-! ## Batons, control registers, transfers (spec/02, spec/03, spec/09) -/

/-- Warp n of the acting warp's block. -/
def mate (s : State) (n : Nat) : Option Warp := s.warp? (32 * s.w.core + n)
/-- R29: what a PASS form that names warp n meets: its status, and who receives the baton. -/
def PassMeets (s : State) (n : Nat) (x : Bool) (st : Nat) (rcv : Option Nat) : Prop :=
  (n = s.w.idx ∧ st = (if x && s.w.inboxFull then 4 else 0) ∧ rcv = none) ∨
  (n ≠ s.w.idx ∧ (s.w.id.nwarps ≤ n ∨ mate s n = none) ∧ st = 5 ∧ rcv = none) ∨
  (n ≠ s.w.idx ∧ n < s.w.id.nwarps ∧ ∃ v, mate s n = some v ∧
    ((v.life = .exited ∧ st = 5 ∧ rcv = none) ∨ (v.life = .faulted ∧ st = 2 ∧ rcv = none) ∨
     (v.life = .live ∧ (v.holding = true ∨ v.isStopped = true) ∧
       ((v.walkFs ≠ s.w.idx ∧ (∃ u, mate s v.walkFs = some u ∧ u.eligible = true) ∧ st = 1 ∧ rcv = some v.walkFs) ∨
        (¬ (v.walkFs ≠ s.w.idx ∧ ∃ u, mate s v.walkFs = some u ∧ u.eligible = true) ∧ st = 3 ∧ rcv = none))) ∨
     (v.life = .live ∧ v.holding = false ∧ v.isStopped = false ∧
       ((x = true ∧ v.inboxFull = true ∧ st = 4 ∧ rcv = none) ∨ (¬ (x = true ∧ v.inboxFull = true) ∧ st = 0 ∧ rcv = some n)))))
/-- R27, R29, R30: the instruction completes with its status; the baton moves to the receiver, whose slot issues nothing in the next cycle. -/
def PassRule (i : Instr) (u : Use) (d : SIdx) (n : State → Nat) (x : Bool) : Prop :=
  ∀ s : State, s.w.real = true → Ready u s → ∃ (t : State) (st : Nat) (rcv : Option Nat), exec i s = .next t ∧ PassMeets s (n s) x st rcv ∧
    t.w.rdS d = (if d = 0 then 0 else BitVec.ofNat 64 st) ∧ t.w.passHold = (if d = 0 then none else some (d, 2)) ∧
    t.w.p.pc = s.w.p.pc + s.ilen ∧ t.w.ldr = none ∧
    (∀ r, r ≠ d → KeptS u.ssrc r → (x = true → inboxS r.toNat = false) → t.w.rdS r = s.w.rdS r) ∧ (NoTrace s → t.mem = s.mem) ∧
    (rcv = none → t.w.baton = s.w.baton) ∧
    (∀ r k, rcv = some r → s.w.baton = some k → t.w.baton = none ∧ ∃ v, mate t r = some v ∧ v.baton = some k ∧ v.tenure = 0 ∧ v.busy = 2)
/-- R31, R205: what a delivery leaves at the receiver. -/
def Delivered (s t : State) (n : Nat) (b : SIdx) (q : Option VIdx) : Prop :=
  ∃ v, mate t n = some v ∧ v.inboxFull = true ∧ v.inboxFrom = s.w.idx ∧ v.rdS 120 = s.w.rdS b ∧ v.rdS 121 = s.w.rdS (b + 1) ∧
    v.rdS 122 = s.w.rdS (b + 2) ∧ v.rdS 123 = s.w.rdS (b + 3) ∧
    ∀ r, q = some r → ∀ L, L < s.W → v.lane 239 L = s.w.lane r L
/-- The use of PASSX: its sources, vQ over every lane (R203, R204). -/
def usePassx (c : Ctl) (d a b : SIdx) (q : Option VIdx) : Use :=
  { ssrc := [(a, luA c), (b, luB c), (b + 1, false), (b + 2, false), (b + 3, false)],
    vsrc := q.toList.map fun r => (r, luC c), sdst := [d], allLanes := true }

/-- R175: the address a C-format instruction names. -/
def cAddr (w : Warp) (off : BitVec 32) : Nat := (BitVec.ofInt 64 ((w.p.hdr.addr : Int) + 2 * off.toInt)).toNat
/-- R210: the address after the body of the block in force. -/
def afterBody (w : Warp) : Nat := w.p.hdr.addr + 8 + 2 * (w.p.hdr.word.toNat / 2 ^ 48 % 2 ^ 12)
/-- A transfer to a header position (R173): only the program counter of the path has changed, and the registers named. -/
def Jumped (s t : State) (a : Nat) : Prop :=
  t.w.p = { s.w.p with pc := a / 2 * 2, atHdr := true } ∧ t.w.vregs = s.w.vregs ∧ t.w.masks = s.w.masks ∧ t.w.ops = s.w.ops ∧
  t.warps = s.warps ∧ (NoTrace s → t.mem = s.mem)
/-- R175, R209, R210: a taken transfer goes to a header, or raises what its target raises; one not taken falls through. -/
def BranchRule (i : Instr) (ss : List (SIdx × Bool)) (off : BitVec 32) (taken : Warp → Prop) : Prop :=
  ∀ s : State, Ready { ssrc := ss } s →
    (¬ taken s.w → ∃ t, exec i s = .next t ∧ OnlyWarp s t ∧ t.w.p = s.w.p.step s.ilen ∧ ∀ r, KeptS ss r → t.w.rdS r = s.w.rdS r) ∧
    (taken s.w → targetBad s (cAddr s.w off) false none = none → ∃ t, exec i s = .next t ∧ Jumped s t (cAddr s.w off) ∧
      t.w.lastSite = none ∧ ∀ r, KeptS ss r → t.w.rdS r = s.w.rdS r) ∧
    (∀ tr, taken s.w → targetBad s (cAddr s.w off) false none = some tr → exec i s = .next (takeTrap s tr))

/-- A mask bit is set in an active lane. -/
def someActive (w : Warp) (m : MIdx) (b : Bool) : Prop := ∃ L, L < w.W ∧ w.p.exec.getLsbD L = true ∧ (w.rdM m).getLsbD L = b

end Sys2Proof.Stmt

/-- R29 to R31, R203 to R205: the PASS forms. -/
def Obligations.PassForms : Prop :=
  (∀ (c : Ctl) (d a : SIdx), PassRule (.pass c d a) { ssrc := [(a, luA c)], sdst := [d] } d (fun s => (s.w.rdS a).toNat) false) ∧
  (∀ (c : Ctl) (d : SIdx) (n : BitVec 5), PassRule (.passi c d n) { sdst := [d] } d (fun _ => n.toNat) false) ∧
  (∀ (c : Ctl) (d : SIdx), PassRule (.passf c d) { sdst := [d] } d (fun s => s.w.walkFs) false) ∧
  (∀ (c : Ctl) (d a b : SIdx) (q : Option VIdx), PassRule (.passx c d a b q) (usePassx c d a b q) d (fun s => (s.w.rdS a).toNat) true) ∧
  (∀ (c : Ctl) (d a b : SIdx) (q : Option VIdx) (s : State) (v : Warp), s.w.real = true → Ready (usePassx c d a b q) s → s.W ≤ 64 →
    (s.w.rdS a).toNat ≠ s.w.idx → (s.w.rdS a).toNat < s.w.id.nwarps → mate s (s.w.rdS a).toNat = some v → v.eligible = true →
    v.inboxFull = false → v.W = s.W → ∃ t, exec (.passx c d a b q) s = .next t ∧ Delivered s t (s.w.rdS a).toNat b q)

/-- R77, R78, R199, R206: CSRRD gives the register's value and raises 0x01 CSR for a number without one; CSRWR and SETFS change the
fields the register lets them change. -/
def Sys2Proof.Stmt.ControlRegisters : Prop :=
  (∀ (c : Ctl) (d : SIdx) (s : State), Ready { sdst := [d] } s →
    ∀ e ∈ [(0x000, s.w.idx), (0x001, s.w.id.block), (0x002, s.w.id.gang), (0x003, s.w.id.nwarps), (0x004, s.W), (0x005, s.w.id.nblocks),
           (0x006, s.w.id.ngangs), (0x007, s.w.id.rank), (0x008, s.w.id.lid.toNat), (0x011, s.w.fsucc), (0x012, s.w.slipw),
           (0x021, s.w.lctb), (0x022, s.w.lctg), (0x023, s.w.lctd), (0x030, 16 * s.w.trapen.toNat + s.w.rmode.toNat),
           (0x031, s.w.fpstat.toNat), (0x040, s.w.pid), (0x041, s.w.npaths), (0x050, s.w.id.tnbase), (0x051, s.w.id.tncount),
           (0x060, s.w.id.argbase), (0x061, s.w.id.dictbase)],
      ∃ t, exec (.csrrd c d (BitVec.ofNat 12 e.1)) s = .next t ∧ OnlyWarp s t ∧ Gives s t d (BitVec.ofNat 64 e.2)) ∧
  (∀ (c : Ctl) (d a : SIdx) (n : BitVec 12) (s : State),
    ¬ (n.toNat ≤ 8 ∨ 0x10 ≤ n.toNat ∧ n.toNat ≤ 0x14 ∨ 0x20 ≤ n.toNat ∧ n.toNat ≤ 0x23 ∨ 0x30 ≤ n.toNat ∧ n.toNat ≤ 0x33 ∨
       0x40 ≤ n.toNat ∧ n.toNat ≤ 0x42 ∨ n.toNat = 0x50 ∨ n.toNat = 0x51 ∨ n.toNat = 0x60 ∨ n.toNat = 0x61 ∨ 0x70 ≤ n.toNat ∧ n.toNat ≤ 0x7F) →
    exec (.csrrd c d n) s = .next (takeTrap s { code := 1, sub := 0x0A }) ∧
    exec (.csrwr c n a) s = .next (takeTrap s { code := 1, sub := 0x0A })) ∧
  (∀ (c : Ctl) (a : SIdx) (s : State), Ready { ssrc := [(a, luA c)] } s →
    let v := s.w.rdS a
    let keep := fun (t : State) => Passed s t ∧ ∀ r, KeptS [(a, luA c)] r → t.w.rdS r = s.w.rdS r
    (∀ i, (i = .csrwr c 0x011 a ∨ i = .setfs c a) → ∃ t, exec i s = .next t ∧ keep t ∧
      t.w.fsucc = v.toNat % max 1 s.w.id.nwarps ∧ t.w.walkFs = s.w.walkFs) ∧
    (∃ t, exec (.csrwr c 0x012 a) s = .next t ∧ keep t ∧ t.w.slipw = v.toNat % 256 ∧ t.w.fsucc = s.w.fsucc) ∧
    (∀ i, (i = .csrwr c 0x014 a ∨ i = .inboxClear c a) → ∃ t, exec i s = .next t ∧ keep t ∧
      t.w.inboxFull = (s.w.inboxFull && v.getLsbD 0)) ∧
    (∃ t, exec (.csrwr c 0x030 a) s = .next t ∧ keep t ∧ t.w.rmode = v.extractLsb' 0 2 ∧ t.w.trapen = v.extractLsb' 4 5) ∧
    (∃ t, exec (.csrwr c 0x032 a) s = .next t ∧ keep t ∧ t.w.exh = s.w.exh &&& ~~~(v.extractLsb' 0 8)) ∧
    (∃ t, exec (.csrwr c 0x033 a) s = .next t ∧ keep t ∧ t.w.voidrd = (s.w.voidrd && !v.getLsbD 0)) ∧
    (∀ i, (i = .csrwr c 0x042 a ∨ i = .invstateAbandon c a) → ∃ t, exec i s = .next t ∧ keep t ∧
      t.w.invValid = v.getLsbD 7 ∧ t.w.invIter = v.extractLsb' 0 7) ∧
    (∀ n ∈ [0x000#12, 0x003#12, 0x008#12, 0x010#12, 0x013#12, 0x020#12, 0x021#12, 0x040#12, 0x050#12, 0x060#12, 0x070#12],
      ∃ t, exec (.csrwr c n a) s = .next t ∧ keep t ∧ t.w.ops = s.w.ops ∧ t.w.id = s.w.id ∧ t.w.baton = s.w.baton)) ∧
  (∀ (c : Ctl) (a : SIdx) (s : State), Ready { ssrc := [(a, luA c)] } s → ∃ t, exec (.csrwr c 0x031 a) s = .next t ∧
    t.w.fpstat = s.w.fpstat &&& ~~~((s.w.rdS a).extractLsb' 0 5) ∧ t.mem = s.mem ∧ t.w.p.pc = s.w.p.pc + s.ilen)

/-- R200 to R202: GTIME gives chain time in ns; WAITC waits until every selected counter is at or below its threshold; NOP. -/
def Sys2Proof.Stmt.TimeAndWaits : Prop :=
  (∀ (c : Ctl) (d : SIdx) (s : State), Ready { sdst := [d] } s →
    ∃ t, exec (.gtime c d) s = .next t ∧ OnlyWarp s t ∧ Gives s t d (BitVec.ofNat 64 (2 * s.tick))) ∧
  (∀ (c : Ctl) (m n : BitVec 6) (s : State),
    let low := ∀ e ∈ [(0, Cls.ld), (1, Cls.st), (2, Cls.tl), (3, Cls.dm), (4, Cls.mx), (5, Cls.cl)],
      m.getLsbD e.1 = true → s.w.cnt e.2 ≤ n.toNat
    (low → ∃ t, exec (.waitc c m n) s = .next t ∧ OnlyWarp s t ∧ t.w = s.w.advance s.ilen) ∧ (¬ low → Waits (.waitc c m n) s .counter)) ∧
  (∀ (c : Ctl) (s : State), Ready {} s → ∃ t, exec (.nop c) s = .next t ∧ OnlyWarp s t ∧ t.w = s.w.advance s.ilen)

/-- R199 to R201, R77, R78: control registers, time and waits. -/
def Obligations.ControlAndTime : Prop := Stmt.ControlRegisters ∧ Stmt.TimeAndWaits

/-- R209, R210: branches to any header, and CALL to an ENTRY header, which leaves the address after the body in s126. -/
def Obligations.Branches : Prop :=
  (∀ (c : Ctl) (off : BitVec 32), BranchRule (.br c off) [] off fun _ => True) ∧
  (∀ (c : Ctl) (a : SIdx) (off : BitVec 32), BranchRule (.brz c a off) [(a, luA c)] off fun w => w.rdS a = 0) ∧
  (∀ (c : Ctl) (a : SIdx) (off : BitVec 32), BranchRule (.brnz c a off) [(a, luA c)] off fun w => w.rdS a ≠ 0) ∧
  (∀ (c : Ctl) (m : MIdx) (off : BitVec 32), BranchRule (.brnone c m off) [] off fun w => ¬ someActive w m true) ∧
  (∀ (c : Ctl) (m : MIdx) (off : BitVec 32), BranchRule (.brany c m off) [] off fun w => someActive w m true) ∧
  (∀ (c : Ctl) (m : MIdx) (off : BitVec 32), BranchRule (.brall c m off) [] off fun w => ¬ someActive w m false) ∧
  (∀ (c : Ctl) (off : BitVec 32) (s : State), Ready { sdst := [126] } s →
    (targetBad s (cAddr s.w off) true none = none → ∃ t, exec (.call c off) s = .next t ∧ Jumped s t (cAddr s.w off) ∧
      t.w.rdS 126 = BitVec.ofNat 64 (afterBody s.w) ∧ (∀ r, r ≠ 126 → t.w.rdS r = s.w.rdS r) ∧ t.w.lastSite = none) ∧
    (∀ tr, targetBad s (cAddr s.w off) true none = some tr → exec (.call c off) s = .next (takeTrap s tr)))

/-- R211 to R213: CALLI serves the lanes whose table entry is the lowest active lane's, and leaves the others pending; RET goes to the
header s126 names, where no pending dispatch returns there; else it serves the next group of the dispatch, from the table as it is then, or
ends the dispatch and restores exec. -/
def Obligations.IndirectCalls : Prop :=
  (∀ (c : Ctl) (v : VIdx) (cls : BitVec 8) (s : State) (base len : Nat) (accs : List Acc) (a : Nat),
    Ready { vsrc := [(v, false)], sdst := [126] } s → s.w.disp = [] → s.w.paths = [] → s.w.activeMask 0 ≠ 0 → s.W ≤ 64 →
    let act := (List.range s.W).filter fun L => (s.w.activeMask 0).getLsbD L
    let word := fun (x : Acc) => readPhys s x.dom x.addr 8 % 2 ^ 56 / 2 * 2
    classTable s cls.toNat = .ok (base, len) → (∀ L ∈ act, (s.w.lane v L).toNat < len) →
    checkElems s s.w .load false (act.map fun L => (L, (base + 8 * (s.w.lane v L).toNat) % 2 ^ 64, 8)) = .ok accs →
    (∀ x ∈ accs, s.memPoison.contains (x.addr / 64) = false ∧ ownWrite s.w false x.addr 8 = false) →
    accs.head?.map word = some a → targetBad s a true (some cls) = none →
    ∃ t g, exec (.calli c v cls) s = .next t ∧ (∀ L, L < s.W → (g.getLsbD L = true ↔ ∃ x ∈ accs, x.lane = L ∧ word x = a)) ∧
      t.w.p.pc = a / 2 * 2 ∧ t.w.p.atHdr = true ∧ t.w.p.exec = g ∧ t.w.rdS 126 = BitVec.ofNat 64 (afterBody s.w) ∧
      (g = s.w.activeMask 0 → t.w.disp = []) ∧
      (g ≠ s.w.activeMask 0 → ∃ d, t.w.disp = [d] ∧ d.rem = s.w.activeMask 0 ∧ d.grp = g ∧ d.exec0 = s.w.p.exec ∧ d.site = s.w.p.pc)) ∧
  (∀ (c : Ctl) (v : VIdx) (cls : BitVec 8) (s : State), Ready { vsrc := [(v, false)], sdst := [126] } s → s.w.disp = [] →
    s.w.activeMask 0 = 0 → ∃ t, exec (.calli c v cls) s = .next t ∧ t.w.p.pc = afterBody s.w / 2 * 2 ∧ t.w.p.atHdr = true ∧
      t.w.p.exec = s.w.p.exec ∧ t.w.rdS 126 = BitVec.ofNat 64 (afterBody s.w) ∧ t.mem = s.mem) ∧
  (∀ (c : Ctl) (s : State), s.w.inv = none → Ready { ssrc := [(126, false)] } s →
    (∀ d l, s.w.disp = d :: l → d.ret ≠ (s.w.rdS 126).toNat / 2 * 2) →
    let v := (s.w.rdS 126).toNat / 2 * 2
    ((2 ^ 56 ≤ v ∨ s.w.p.inH = true ∧ v = 0) → exec (.ret c) s = .next (takeTrap s { code := 2, taddr := v % 2 ^ 56 })) ∧
    (v < 2 ^ 56 → (s.w.p.inH = true → v ≠ 0) → targetBad s v false none = none → ∃ t, exec (.ret c) s = .next t ∧
      Jumped s t v ∧ (∀ r, t.w.rdS r = s.w.rdS r) ∧ t.w.disp = s.w.disp ∧ t.w.lastSite = none) ∧
    (∀ tr, v < 2 ^ 56 → (s.w.p.inH = true → v ≠ 0) → targetBad s v false none = some tr → exec (.ret c) s = .next (takeTrap s tr))) ∧
  (∀ (c : Ctl) (s : State) (d : Disp) (l : List Disp) (base len : Nat) (accs : List Acc) (a : Nat), s.w.inv = none → s.w.disp = d :: l →
    Ready { ssrc := [(126, false)] } s → s.W ≤ 64 → d.ret = (s.w.rdS 126).toNat / 2 * 2 →
    let rem := d.rem &&& ~~~d.grp
    let act := (List.range s.W).filter fun L => rem.getLsbD L
    let word := fun (x : Acc) => readPhys s x.dom x.addr 8 % 2 ^ 56 / 2 * 2
    classTable s d.cls.toNat = .ok (base, len) → (∀ L ∈ act, (d.va.getD L 0).toNat < len) →
    checkElems s s.w .load false (act.map fun L => (L, (base + 8 * (d.va.getD L 0).toNat) % 2 ^ 64, 8)) = .ok accs →
    (∀ x ∈ accs, s.memPoison.contains (x.addr / 64) = false ∧ ownWrite s.w false x.addr 8 = false) →
    accs.head?.map word = some a → targetBad s a true (some d.cls) = none →
    ∃ t g, exec (.ret c) s = .next t ∧ (∀ L, L < s.W → (g.getLsbD L = true ↔ ∃ x ∈ accs, x.lane = L ∧ word x = a)) ∧
      t.w.p.pc = a / 2 * 2 ∧ t.w.p.atHdr = true ∧ t.w.p.exec = g ∧ t.w.rdS 126 = BitVec.ofNat 64 d.ret ∧
      t.w.disp = { d with rem := rem, grp := g } :: l ∧ t.w.vregs = s.w.vregs ∧ t.w.masks = s.w.masks) ∧
  (∀ (c : Ctl) (s : State) (d : Disp) (l : List Disp), s.w.inv = none → s.w.disp = d :: l → Ready { ssrc := [(126, false)] } s →
    d.ret = (s.w.rdS 126).toNat / 2 * 2 → d.rem &&& ~~~d.grp = 0 → d.ret < 2 ^ 56 → (s.w.p.inH = true → d.ret ≠ 0) →
    targetBad s d.ret false none = none → ∃ t, exec (.ret c) s = .next t ∧ t.w.disp = l ∧
      t.w.p.exec = d.exec0 &&& s.w.p.lanes ∧ t.w.p.pc = d.ret ∧ t.w.p.atHdr = true)

/-- R215 to R217: SPLIT divides the path's lanes by a mask, the lanes of the mask going to the target; JOIN merges when every path of its
tag has arrived. -/
def Obligations.SplitAndJoin : Prop :=
  (∀ (c : Ctl) (m : MIdx) (off : BitVec 32) (s : State), Ready {} s →
    (Hdr.reconv s.w.p.hdr.word = 0 → exec (.split c m off) s = .next (takeTrap s { code := 3 })) ∧
    (Hdr.reconv s.w.p.hdr.word ≠ 0 → targetBad s (reconv s.w) false none = none → targetBad s (cAddr s.w off / 2 * 2) false none = none →
      s.w.disp = [] → s.w.p.tags.length < Config.tagCap →
      let n := s.w.p.lanes &&& s.w.rdM m
      let k := s.w.p.lanes &&& ~~~(s.w.rdM m)
      (n = 0 → ∃ t, exec (.split c m off) s = .next t ∧ OnlyWarp s t ∧ t.w = s.w.advance s.ilen) ∧
      (n ≠ 0 → k = 0 → ∃ t, exec (.split c m off) s = .next t ∧ Jumped s t (cAddr s.w off / 2 * 2)) ∧
      (∀ i, n ≠ 0 → k ≠ 0 → s.w.freePath = some i → ∃ t, exec (.split c m off) s = .next t ∧
        t.w.p.lanes = k ∧ t.w.p.exec = s.w.p.exec &&& k ∧ t.w.p.pc = s.w.p.pc + s.ilen ∧ t.w.pid = s.w.pid ∧
        ∃ q, t.w.paths.get? i = some q ∧ q.lanes = n ∧ q.exec = s.w.p.exec &&& n ∧ q.pc = cAddr s.w off / 2 * 2 ∧ q.atHdr = true ∧
          q.tags = t.w.p.tags ∧ t.w.p.tags = (s.w.p.hdr.addr, reconv s.w) :: s.w.p.tags) ∧
      (n ≠ 0 → k ≠ 0 → s.w.freePath = none → exec (.split c m off) s = .next (takeTrap s { code := 3 })))) ∧
  (∀ (c : Ctl) (s : State), Ready {} s →
    (s.w.p.tags = [] → ∃ t, exec (.join c) s = .next t ∧ OnlyWarp s t ∧ t.w = s.w.advance s.ilen) ∧
    (∀ g l, s.w.p.tags = g :: l → g.2 ≠ s.w.p.hdr.addr → exec (.join c) s = .next (takeTrap s { code := 3 })) ∧
    (∀ g l, s.w.p.tags = g :: l → g.2 = s.w.p.hdr.addr → s.w.paths = [] → ∃ t, exec (.join c) s = .next t ∧ t.w.p.tags = l ∧
      t.w.p.lanes = s.w.p.lanes ∧ t.w.p.exec = s.w.p.exec ∧ t.w.p.pc = s.w.p.pc + 8 ∧ t.w.paths = [] ∧ t.w.sregs = s.w.sregs) ∧
    (∀ g l i q, s.w.p.tags = g :: l → g.2 = s.w.p.hdr.addr → s.w.paths = [(i, q)] → i ≠ s.w.pid → q.tags.head? = some g →
      q.arrived = none → ∃ t, exec (.join c) s = .next t ∧ t.w.p.arrived = some s.w.p.hdr.addr ∧ t.w.stalled = true ∧
        t.w.p.pc = s.w.p.pc ∧ t.w.paths = s.w.paths) ∧
    (∀ g l i q, s.w.p.tags = g :: l → g.2 = s.w.p.hdr.addr → s.w.paths = [(i, q)] → i ≠ s.w.pid → q.tags.head? = some g →
      q.arrived = some s.w.p.hdr.addr → ∃ t, exec (.join c) s = .next t ∧ t.w.paths = [] ∧ t.w.pid = min i s.w.pid ∧
        t.w.p.lanes = s.w.p.lanes ||| q.lanes ∧ t.w.p.exec = s.w.p.exec ||| q.exec ∧ t.w.p.arrived = none ∧
        t.w.p.pc = (if s.w.pid < i then s.w.p.pc else q.pc) + 8 ∧ t.w.sregs = s.w.sregs ∧ t.w.vregs = s.w.vregs))

/-- R208, R214, R320, R340: TRAP, TRAP #LAZY and BRK raise their traps with their argument; with breakpoints armed BRK stops the warp
past it (R408; log 15), and its baton goes where a slip's would, or stays where no warp can take it. R39, R207: EXIT and EXITP end the warp, whose baton goes to the named warp, or down the successor walk. -/
def Obligations.TrapsAndExits : Prop :=
  (∀ (c : Ctl) (n : BitVec 16) (s : State),
    exec (.trap c n) s = .next (takeTrap s { code := 0x0E, arg := n.toNat, next := true }) ∧
    (bpArmed s s.w = false → exec (.brk c n) s = .next (takeTrap s { code := 0x0F, arg := n.toNat, next := true })) ∧
    (bpArmed s s.w = true → s.w.real = true → s.w.smode = false → s.w.park = none → ∃ t, exec (.brk c n) s = .next t ∧
      t.w.perched = true ∧ t.w.brkArg = n.toNat ∧ t.w.p.pc = s.w.p.pc + s.ilen ∧ t.w.sregs = s.w.sregs ∧ t.w.slips = s.w.slips ∧
      (s.w.baton = none ∨ receiver s s.w.core s.w.idx = none → t.w.baton = s.w.baton) ∧
      ∀ k r v, s.w.baton = some k → receiver s s.w.core s.w.idx = some r → mate s r = some v →
        ∃ v', t.w.baton = none ∧ mate t r = some v' ∧ v'.baton = some k ∧ v'.tenure = 0 ∧ v'.busy = 2)) ∧
  (∀ (c : Ctl) (s : State), s.w.lastSite = none → exec (.trapLazy c) s = .next (takeTrap s { code := 0x0E, next := true })) ∧
  (∀ (c : Ctl) (s : State) (l : LastSite), s.w.lastSite = some l → ∃ rem,
    exec (.trapLazy c) s = .next (takeTrap s
      { code := 0x10, index := l.index, cls := l.cls.toNat, site := l.site, shdr := l.hdr.addr, remain := rem, next := true }) ∧ (s.w.disp = [] → rem = s.w.p.exec) ∧ ∀ d ds, s.w.disp = d :: ds → rem = d.rem) ∧
  (∀ (c : Ctl) (a : SIdx) (i : Instr) (s : State), s.w.real = true → s.w.paths = [] →
    (i = .exit c ∧ Ready {} s ∨ i = .exitp c a ∧ Ready { ssrc := [(a, luA c)] } s) →
    ∃ t, exec i s = .next t ∧ t.w.life = .exited ∧ t.w.resV = 0 ∧ t.w.resS = 0 ∧ t.w.vregs = [] ∧ t.w.sregs = [] ∧ t.w.ldr = none ∧
      (s.w.baton ≠ none → t.w.baton = none) ∧ (NoTrace s → t.mem = s.mem)) ∧
  (∀ (c : Ctl) (a : SIdx) (s : State) (v : Warp) (k : Nat), s.w.real = true → s.w.paths = [] → s.w.park = none →
    Ready { ssrc := [(a, luA c)] } s → s.w.baton = some k → (s.w.rdS a).toNat ≠ s.w.idx → (s.w.rdS a).toNat < s.w.id.nwarps →
    mate s (s.w.rdS a).toNat = some v → v.eligible = true →
    ∃ t v', exec (.exitp c a) s = .next t ∧ mate t (s.w.rdS a).toNat = some v' ∧ v'.baton = some k ∧ v'.busy = 2) ∧
  (∀ (c : Ctl) (s : State), s.w.paths ≠ [] → Ready {} s → ∃ t, exec (.exit c) s = .next t ∧ t.w.life = s.w.life ∧
    t.w.baton = s.w.baton ∧ t.w.sregs = s.w.sregs ∧ t.w.vregs = s.w.vregs)

/-- R276 to R281: INV starts a run of its routine on the lower ends of the brackets; the end of that run starts one on the upper ends; a
routine that is not MONOTONE, or an INV without its CALL, is an illegal instruction; with no lane to run it completes at once; the RET at
the boundary after the last run completes the INV. -/
def Obligations.InverseRuns : Prop :=
  (∀ (c : Ctl) (o : InvOps) (s : State), invCall s = none → exec (.inv c o) s = .next (takeTrap s { code := 1, sub := 0x0B })) ∧
  (∀ (c : Ctl) (o : InvOps) (s : State) (off : BitVec 32) (h : Word),
    let a := cAddr s.w off / 2 * 2
    invCall s = some off → (∀ r ∈ [o.x, o.x + 1, o.y, o.tgt], s.w.portOf r = none) → s.w.full = true → targetBad s a true none = none →
    headerAt s s.w a = .ok (some h) →
    (Hdr.mono h = false → exec (.inv c o) s = .next (takeTrap s { code := 1, sub := 9 })) ∧
    (Hdr.mono h = true → Ready (invUse s.w o) s →
      (s.w.activeMask o.ms ≠ 0 → s.w.invValid = false → s.W ≤ 64 → ∃ t r, exec (.inv c o) s = .next t ∧ t.w.inv = some r ∧ r.ph = .lo ∧
        r.o = o ∧ r.live = s.w.activeMask o.ms ∧ t.w.p.pc = a ∧ t.w.p.atHdr = true ∧ t.w.p.exec = r.live ∧ t.w.invValid = true ∧
        t.w.invIter = 0 ∧ (∀ L, L < s.W → r.live.getLsbD L = true →
          t.w.lane o.x L = s.w.brkLane (if o.hiPair then 2 else 0) L ∧ t.w.lane (o.x + 1) L = 0) ∧
        (∀ q L, q ≠ o.x → q ≠ o.x + 1 → s.w.portOf q = none → t.w.lane q L = s.w.lane q L)) ∧
      (s.w.activeMask o.ms = 0 → ∃ t, exec (.inv c o) s = .next t ∧ t.w.inv = none ∧ t.w.invValid = false ∧ t.w.p.pc = afterBody s.w))) ∧
  (∀ (c : Ctl) (s : State) (r : InvRun), s.w.inv = some r → r.ph = .lo → Ready { vsrc := [(r.o.y, false)] } s → s.W ≤ 64 →
    s.w.portOf r.o.x = none → s.w.portOf r.o.y = none → ∃ t r', exec (.ret c) s = .next t ∧ t.w.inv = some r' ∧ r'.ph = .hi ∧
      r'.flo = lanes s.W (fun L => s.w.lane r.o.y L) ∧ t.w.p.pc = r.target ∧ t.w.p.exec = r.live ∧
      ∀ L, L < s.W → r.live.getLsbD L = true → t.w.lane r.o.x L = s.w.brkLane (if r.o.hiPair then 3 else 1) L) ∧
  (∀ (c : Ctl) (s : State) (r : InvRun), s.w.inv = some r → r.ph = .fin → ∃ t, exec (.ret c) s = .next t ∧ t.w.inv = none ∧
    t.w.invValid = false ∧ t.w.invIter = 0 ∧ t.w.p.exec = r.exec0 ∧ t.w.p.pc = r.ret ∧ t.w.p.atHdr = true)

/-- R184, R185, R190: a dictionary code acts as the instruction it expands to, whichever that is, two bytes long; one that does not expand
raises 0x01. -/
def Obligations.DictionaryCodes : Prop :=
  (∀ (k : BitVec 4) (n : BitVec 10) (s : State) (e : Nat), expand s k n = .error e →
    exec (.dictionaryCode k n) s = .next (takeTrap { s with ilen := 2 } { code := 1, sub := e })) ∧
  (∀ (k : BitVec 4) (n : BitVec 10) (s : State),
    (n.toNat ≥ s.w.id.dictcount ∨ Hdr.dict s.w.p.hdr.word = false ∨ (s.core s.w.core).dict.length ≤ n.toNat) → expand s k n = .error 7) ∧
  (∀ (k : BitVec 4) (n : BitVec 10) (s : State) (i : Instr), expand s k n = .ok i →
    exec (.dictionaryCode k n) s = exec i { s with ilen := 2 }) ∧
  (∀ (k : BitVec 4) (n : BitVec 10) (s : State) (c : Ctl) (d a b : SIdx), expand s k n = .ok (.sadd c d a b) →
    Ready { ssrc := [(a, luA c), (b, luB c)], sdst := [d] } s → ∃ t, exec (.dictionaryCode k n) s = .next t ∧
      t.w.p.pc = s.w.p.pc + 2 ∧ t.w.rdS d = (if d = 0 then 0 else s.w.rdS a + s.w.rdS b) ∧ t.mem = s.mem)

namespace Sys2Proof.Stmt
open Sys2Proof.Machine

/-! ## Traps and privileged instructions (spec/17, spec/18) -/

/-- The frame of R321: CAUSE, TPC, INNERPC, TADDR, TMASK, EXEC, TRAPARG, LAZY class and index, LAZY site, LAZY remain, zeros. -/
def frame321 (w : Warp) (t : TrapInfo) : List Word :=
  [BitVec.ofNat 64 (t.code + 256 * t.sub), BitVec.ofNat 64 (trapPc w t), BitVec.ofNat 64 (if w.inv.isSome then w.p.pc else 0),
   BitVec.ofNat 64 t.taddr, t.tmask, trapExec w t, BitVec.ofNat 64 t.arg, BitVec.ofNat 64 (t.cls + 2 ^ 32 * t.index),
   BitVec.ofNat 64 t.site, t.remain, 0, 0, 0, 0, 0, 0]
/-- R321, R341: the warp stands at the handler with s1 the frame and s126 zero, or waits for the reservation the handler's header asks for. -/
def AtHandler (w : Warp) (frame target : Nat) : Prop :=
  (w.entry = none ∧ w.p.pc = target ∧ w.p.atHdr = true ∧ w.rdS 1 = BitVec.ofNat 64 frame ∧ w.rdS 126 = 0) ∨
  (∃ e, w.entry = some e ∧ e.frame = frame ∧ e.target = target ∧ w.wait = .header)

/-- Warps stand under their own keys, each once. -/
def KeysOk (s : State) : Prop :=
  s.warps.wf ∧ (∀ e ∈ s.warps, e.2.key = e.1) ∧ (s.w.real = true → s.warps.has s.w.key = false)
/-- The instruction has issued: the program counter is past it, memory and the vector registers are as before. -/
def Moved (s t : State) : Prop := t.w.p = s.w.p.step s.ilen ∧ t.mem = s.mem ∧ t.w.vregs = s.w.vregs
/-- A scalar result beside an effect elsewhere. -/
def GivesS (s t : State) (d : SIdx) (v : Word) (ss : List (SIdx × Bool)) : Prop :=
  Moved s t ∧ t.w.rdS d = (if d = 0 then 0 else v) ∧ ∀ r, r ≠ d → KeptS ss r → t.w.rdS r = s.w.rdS r

end Sys2Proof.Stmt

/-- R9, R51, R320, R321, R340 to R344: a trap with a user code enters the launch's handler with its frame written and exec every lane
of the path; one of the supervisor's codes enters TVEC's handler in S mode with TCAUSE to TPC set; without a handler, and inside it, the
warp is FAULTED; while a trap is active, or where its frame cannot be written, the gang ends with status DOUBLE. -/
def Obligations.TrapEntry : Prop :=
  (∀ (s : State) (t : TrapInfo) (h : Word) (s2 : State),
    let s1 := trapState s t
    s1.w.active = false → 1 ≤ t.code → t.code ≤ 0x0F → s1.w.id.handler ≠ 0 → s1.w.p.inH = false →
    entryHeader s1 s1.w s1.w.id.handler = .ok h → writeWords s1 s1.w (userFrameAddr s1.w) (frame321 s1.w t) = .ok s2 →
    let e := takeTrap s t
    e.mem = s2.mem ∧ e.w.p.exec = s2.w.p.lanes ∧ e.w.p.inH = true ∧ e.w.inv = none ∧ e.w.smode = s2.w.smode ∧
      AtHandler e.w (userFrameAddr s1.w) s1.w.id.handler) ∧
  (∀ (s : State) (t : TrapInfo) (h : Word) (s2 : State),
    let s1 := trapState s t
    let tvec := (s1.part s1.w.id.part).tvec / 2 * 2
    s1.w.active = false → t.code ∈ [0x10, 0x20, 0x21, 0x22, 0x30, 0x31] →
    writeWords s1 { s1.w with smode := true } (systemFrameAddr s1 s1.w) (systemFrame s1 s1.w t (if t.code = 0x20 then 3 else 0) s1.ilen) = .ok s2 →
    entryHeader s2 { s1.w with smode := true } tvec = .ok h →
    let e := takeTrap s t
    e.mem = s2.mem ∧ e.w.smode = true ∧ e.w.active = true ∧ e.w.ppm = s1.w.smode ∧ e.w.tcode = t.code ∧ e.w.tsub = t.sub ∧
      e.w.taddr = t.taddr ∧ e.w.tmask = t.tmask ∧ e.w.tpc = trapPc s1.w t ∧ e.w.p.exec = s2.w.p.lanes ∧
      AtHandler e.w (systemFrameAddr s1 s1.w) tvec) ∧
  (∀ (s : State) (t : TrapInfo), (trapState s t).w.active = false → 1 ≤ t.code → t.code ≤ 0x0F →
    ((trapState s t).w.id.handler = 0 ∨ (trapState s t).w.p.inH = true) →
    (trapState s t).w.id.abort = false → (trapState s t).w.real = true →
    (takeTrap s t).w.life = .faulted ∧ (takeTrap s t).w.resV = 0 ∧ (takeTrap s t).w.ldr = none) ∧
  (∀ (s : State) (t : TrapInfo), (trapState s t).w.active = true →
    ((takeTrap s t).gang (trapState s t).w.id.lid (trapState s t).w.id.gang).ended = some 3) ∧
  (∀ (s : State) (t : TrapInfo) (c : Nat),
    let s1 := trapState s t
    s1.w.active = false → t.code ∈ [0x10, 0x20, 0x21, 0x22, 0x30, 0x31] →
    writeWords s1 { s1.w with smode := true } (systemFrameAddr s1 s1.w) (systemFrame s1 s1.w t (if t.code = 0x20 then 3 else 0) s1.ilen) = .error c →
    ((takeTrap s t).gang s1.w.id.lid s1.w.id.gang).ended = some 3) ∧
  (∀ (s : State) (t : TrapInfo), NoTrace s → t.code ≠ 0x30 → t.code ≠ 0x22 → s.w.inv = none →
    (trapState s t).mem = s.mem ∧ (trapState s t).w.vregs = s.w.vregs ∧ (trapState s t).w.sregs = s.w.sregs ∧
      (trapState s t).w.ldr = s.w.ldr ∧ (trapState s t).w.p.pc = s.w.p.pc)

/-- R188: in U mode a privileged instruction raises 0x01 PRIV; an encoding that is no instruction raises 0x01 OPCODE. -/
def Sys2Proof.Stmt.UserMode : Prop :=
  (∀ (c : Ctl) (d a b : SIdx) (n : BitVec 12) (o : TlbOp) (s : State), s.w.smode = false →
    ∀ i ∈ [Instr.rdpr c d n, .wrpr c n a, .voteWrite c a, .tret c, .haltg c, .resumeg c, .shsave c d a, .shrest c d a, .tlbinv c o a,
           .evict c d a, .ctrsel c a, .aszrec c d a b, .tabort c a, .warpctlStat c d a, .warpctlKill c d a],
      exec i s = .next (takeTrap s { code := 1, sub := 4 })) ∧
  (∀ (w : Word) (s : State), exec (.unassignedOpcode w) s = .next (takeTrap s { code := 1, sub := 1 }))

/-- R327, R328, R330, R369, R370: RDPR gives a register's value, WRPR changes what a write may change; a number without a register raises
0x01 CSR; a vote takes effect unless it is denied. -/
def Sys2Proof.Stmt.PrivilegedRegisters : Prop :=
  (∀ (c : Ctl) (d : SIdx) (s : State), s.w.smode = true → Ready { sdst := [d] } s →
    let p := s.part s.w.id.part
    let k := s.core s.w.core
    ∀ e ∈ [(0x100, 1), (0x101, p.tvec), (0x102, s.w.tcode + 256 * s.w.tsub + 2 ^ 62 * s.w.ppm.toNat + 2 ^ 63 * s.w.active.toNat),
           (0x103, s.w.taddr), (0x104, s.w.tmask.toNat), (0x105, s.w.tpc), (0x106, k.tframe), (0x107, k.left * 2 ^ 32 + k.budget),
           (0x110, p.shbase), (0x111, p.ptbase), (0x112, p.asid), (0x113, p.keydom), (0x120, p.energy.limit),
           (0x121, (s.cluster s.w.cluster).pool), (0x122, p.vote), (0x123, k.slope), (0x130, (linkAllows p s.w.die 0).toNat),
           (0x137, (linkAllows p s.w.die 7).toNat), (0x138, p.fwlog.toNat * 2 ^ 63 + p.fwaddr), (0x140, p.ctrbank)],
      ∃ t, exec (.rdpr c d (BitVec.ofNat 12 e.1)) s = .next t ∧ OnlyWarp s t ∧ Gives s t d (BitVec.ofNat 64 e.2)) ∧
  (∀ (c : Ctl) (d a : SIdx) (n : BitVec 12) (s : State), s.w.smode = true →
    ¬ (0x100 ≤ n.toNat ∧ n.toNat ≤ 0x107 ∨ 0x110 ≤ n.toNat ∧ n.toNat ≤ 0x113 ∨ 0x120 ≤ n.toNat ∧ n.toNat ≤ 0x123 ∨
       0x130 ≤ n.toNat ∧ n.toNat ≤ 0x138 ∨ n.toNat = 0x140) →
    exec (.rdpr c d n) s = .next (takeTrap s { code := 1, sub := 0x0A }) ∧
    exec (.wrpr c n a) s = .next (takeTrap s { code := 1, sub := 0x0A })) ∧
  (∀ (c : Ctl) (a : SIdx) (s : State), s.w.smode = true → Ready { ssrc := [(a, luA c)] } s →
    let v := s.w.rdS a
    let pid := s.w.id.part
    let p := s.part pid
    let k := s.core s.w.core
    let keep := fun (t : State) => Passed s t ∧ ∀ r, KeptS [(a, luA c)] r → t.w.rdS r = s.w.rdS r
    (∀ e ∈ [(0x101, { p with tvec := v.toNat % 2 ^ 56 }), (0x111, { p with
              ptbase := v.toNat % 2 ^ 56 / 4096 * 4096,
              oldRoot := if p.oldRoot.getD p.ptbase = v.toNat % 2 ^ 56 / 4096 * 4096 then none else some (p.oldRoot.getD p.ptbase) }),
            (0x112, { p with asid := v.toNat % 2 ^ 16, oldRoot := if v.toNat % 2 ^ 16 = p.asid then p.oldRoot else none }), (0x120, { p with energy := { p.energy with limit := v.toNat } }),
            (0x138, { p with fwlog := p.fwlog && !v.getLsbD 63 })],
      ∃ t, exec (.wrpr c (BitVec.ofNat 12 e.1) a) s = .next t ∧ keep t ∧ t.part pid = e.2 ∧ t.cores = s.cores ∧
        ∀ q, q ≠ pid → t.part q = s.part q) ∧
    (∀ e ∈ [(0x106, { k with tframe := v.toNat % 2 ^ 56 / 256 * 256 }), (0x107, { k with budget := v.toNat % 2 ^ 32 }),
            (0x123, { k with slope := v.toNat % 256 })],
      ∃ t, exec (.wrpr c (BitVec.ofNat 12 e.1) a) s = .next t ∧ keep t ∧ t.core s.w.core = e.2 ∧ t.parts = s.parts ∧
        ∀ q, q ≠ s.w.core → t.core q = s.core q) ∧
    (∀ n ∈ [0x100#12, 0x102#12, 0x103#12, 0x110#12, 0x113#12, 0x121#12, 0x130#12, 0x140#12],
      ∃ t, exec (.wrpr c n a) s = .next t ∧ keep t ∧ t.parts = s.parts ∧ t.cores = s.cores ∧ t.clusters = s.clusters)) ∧
  (∀ (c : Ctl) (a : SIdx) (s : State), s.w.smode = true → Ready { ssrc := [(a, luA c)] } s →
    let v := (s.w.rdS a).toNat % 2 ^ 16
    (journalFull s = true → Waits (.voteWrite c a) s .queue) ∧
    (journalFull s = false → (152 < v ∨ 1 ≤ v ∧ v < railFloor s (s.w.die / 2)) → ∃ t, exec (.voteWrite c a) s = .next t ∧ Passed s t ∧
      t.parts = s.parts) ∧
    (journalFull s = false → ¬ (152 < v ∨ 1 ≤ v ∧ v < railFloor s (s.w.die / 2)) → ∃ t, exec (.voteWrite c a) s = .next t ∧ Passed s t ∧
      t.part s.w.id.part = { s.part s.w.id.part with vote := v }))

/-- R188, R328, R329, R370: the mode, and the privileged registers. -/
def Obligations.ModesAndRegisters : Prop := Stmt.UserMode ∧ Stmt.PrivilegedRegisters

/-- R331, R332: TRET with ACTION 0 restores pc, exec, mode and the four scalars of the frame, and asks for the reservation held at the
trap, or again for the user handler's entry the warp waited for (log 47); with ACTION 1 the gang ends ABORTED; with no trap active it is
an illegal instruction, and so it is with an ACTION above 3 (subcode RESERVED: the model's choice, log 49). HALTG halts the gang's other warps
in U mode, RESUMEG lets them go on. -/
def Obligations.TrapReturnAndHalt : Prop :=
  (∀ (c : Ctl) (s : State), s.w.smode = true → s.w.active = false → exec (.tret c) s = .next (takeTrap s { code := 1, sub := 2 })) ∧
  (∀ (c : Ctl) (s : State) (f : List Word), s.w.smode = true → s.w.active = true → Ready {} s → readFrame s s.w = some f →
    let u := f.getD 28 0
    let act := (f.getD 16 0).toNat / 2 ^ 56
    let code := (f.getD 0 0).toNat % 256
    (act = 0 → code ≠ 0x10 → ∃ t, exec (.tret c) s = .next t ∧ t.w.active = false ∧ t.w.smode = (f.getD 16 0).getLsbD 8 ∧
      t.w.p.pc = (f.getD 17 0).toNat % 2 ^ 56 / 2 * 2 ∧ t.w.p.exec = f.getD 5 0 &&& s.w.p.lanes ∧
      t.w.rdS 1 = (if u.getLsbD 0 then 0 else f.getD 21 0) ∧ t.w.rdS 2 = (if u.getLsbD 1 then 0 else f.getD 22 0) ∧
      t.w.rdS 3 = (if u.getLsbD 2 then 0 else f.getD 23 0) ∧ t.w.rdS 126 = (if u.getLsbD 3 then 0 else f.getD 24 0) ∧
      t.w.entry = s.w.keptEntry ∧ t.w.owed = (if s.w.keptEntry.isSome then none else some (s.w.trapV, s.w.trapS)) ∧ t.w.vregs = s.w.vregs) ∧
    (act = 0 → code = 0x10 → ∃ t, exec (.tret c) s = .next t ∧ t.w.p.pc = (f.getD 8 0).toNat % 2 ^ 56 / 2 * 2 ∧
      t.w.p.exec = f.getD 9 0 &&& s.w.p.lanes) ∧
    (act = 1 → ∃ t, exec (.tret c) s = .next t ∧ (t.gang s.w.id.lid s.w.id.gang).ended = some 2) ∧
    (act = 2 → s.w.real = true → ∃ t, exec (.tret c) s = .next t ∧ t.w.life = .faulted) ∧
    (3 < act → exec (.tret c) s = .next (takeTrap s { code := 1, sub := 2 }))) ∧
  (∀ (c : Ctl) (s : State), s.w.smode = true → Ready {} s → KeysOk s → ∃ t, exec (.haltg c) s = .next t ∧ Moved s t ∧
    (t.gang s.w.id.lid s.w.id.gang).halted = true ∧
    ∀ k v, k ≠ s.w.key → s.warp? k = some v → v.id.lid = s.w.id.lid → v.id.gang = s.w.id.gang → v.smode = false → v.life = .live →
      ∃ v', t.warp? k = some v' ∧ v'.halted = true ∧ v'.p = v.p ∧ v'.vregs = v.vregs ∧ v'.sregs = v.sregs) ∧
  (∀ (c : Ctl) (s : State), s.w.smode = true → Ready {} s → KeysOk s → ∃ t, exec (.resumeg c) s = .next t ∧ Moved s t ∧
    (t.gang s.w.id.lid s.w.id.gang).halted = false ∧
    ∀ k v, s.warp? k = some v → v.id.lid = s.w.id.lid → v.id.gang = s.w.id.gang →
      ∃ v', t.warp? k = some v' ∧ v'.halted = false ∧ v'.p.pc = (if k = s.w.key ∧ s.w.real = true then s.w.p.pc + s.ilen else v.p.pc))

/-- R333 to R339: shadow slots, TLBINV, EVICT, CTRSEL, ASZREC, TABORT, WARPCTL. That a KILL of a stopped warp that is EXITED or FAULTED
already gives 0 and leaves its state is the model's choice (log 26), and so is the status 1 of SHREST for a warp never saved (log 51). -/
def Obligations.SupervisorServices : Prop :=
  (∀ (c : Ctl) (d a : SIdx) (s : State), s.w.smode = true → Ready { ssrc := [(a, luA c)], sdst := [d] } s →
    let ss := [(a, luA c)]
    let v := s.w.rdS a
    (slotWarp s v = none → (∃ t, exec (.shsave c d a) s = .next t ∧ GivesS s t d 2 ss) ∧ ∃ t, exec (.shrest c d a) s = .next t ∧ GivesS s t d 2 ss) ∧
    (∀ w, slotWarp s v = some w →
      (slotStopped w = false → ∃ t, exec (.shsave c d a) s = .next t ∧ GivesS s t d 1 ss) ∧
      (slotStopped w = true → noReads w = false → Waits (.shsave c d a) s .counter) ∧
      (slotStopped w = true → noReads w = true → KeysOk s → ∃ t, exec (.shsave c d a) s = .next t ∧ GivesS s t d 0 ss ∧
        t.warp? w.key = some { w with shadow := true }) ∧
      (w.shadow = false → ∃ t, exec (.shrest c d a) s = .next t ∧ GivesS s t d 1 ss) ∧
      (w.shadow = true → shrestFits s w = true → luA c = false → KeysOk s → ∃ t, exec (.shrest c d a) s = .next t ∧ GivesS s t d 0 ss ∧
        t.warp? w.key = some { w with shadow := false })) ∧
    -- EVICT: 1 where no lease of the partition that is not evicted stands under the handle, else 0 and EVICTED
    ((∀ l, s.lease? s.w.cluster v.toNat = some l → l.part ≠ s.w.id.part ∨ l.st = .evicted) →
      ∃ t, exec (.evict c d a) s = .next t ∧ GivesS s t d 1 ss ∧ t.clusters = s.clusters) ∧
    (∀ l, s.lease? s.w.cluster v.toNat = some l → l.part = s.w.id.part → l.st = .live → l.wakeAt ≤ s.now →
      (∃ q, l.queue.head? = some q ∧ q.worked = false) →
      ∃ t, exec (.evict c d a) s = .next t ∧ GivesS s t d 0 ss ∧
        t.lease? s.w.cluster v.toNat = some { l with st := .evicted, stopping := true, evictAt := s.now, gone := false }) ∧
    (∀ l, s.lease? s.w.cluster v.toNat = some l → l.part = s.w.id.part → l.st = .live → l.queue = [] →
      ∃ t, exec (.evict c d a) s = .next t ∧ GivesS s t d 0 ss ∧
        t.lease? s.w.cluster v.toNat = some { l with st := .evicted, stopping := false, evictAt := s.now, gone := false,
                                                     eng := { bfmt := l.eng.bfmt, shape := l.eng.shape } }) ∧
    -- WARPCTL: 2 for no warp of the gang, 1 for one that is not stopped, else its state word, or FAULTED by KILL
    (gangWarp s v = none → (∃ t, exec (.warpctlStat c d a) s = .next t ∧ GivesS s t d 2 ss) ∧
      ∃ t, exec (.warpctlKill c d a) s = .next t ∧ GivesS s t d 2 ss) ∧
    (∀ w, gangWarp s v = some w →
      (ctlStopped w = false → (∃ t, exec (.warpctlStat c d a) s = .next t ∧ GivesS s t d 1 ss) ∧
        ∃ t, exec (.warpctlKill c d a) s = .next t ∧ GivesS s t d 1 ss) ∧
      (ctlStopped w = true → ∃ t, exec (.warpctlStat c d a) s = .next t ∧ OnlyWarp s t ∧ GivesS s t d (statWord w) ss) ∧
      (ctlStopped w = true → w.key ≠ s.w.key → KeysOk s → ∃ t w', exec (.warpctlKill c d a) s = .next t ∧ GivesS s t d 0 ss ∧
        t.warp? w.key = some w' ∧ w'.life = (if w.life = .live then .faulted else w.life)))) ∧
  (∀ (c : Ctl) (o : TlbOp) (a : SIdx) (s : State), s.w.smode = true → Ready { ssrc := [(a, luA c)] } s →
    let p := s.part s.w.id.part
    let es := p.tlb.filter (tlbHit p o (s.w.rdS a))
    (tlbUsed s s.w.id.part es = true → Waits (.tlbinv c o a) s .counter) ∧
    (tlbUsed s s.w.id.part es = false → ∃ t, exec (.tlbinv c o a) s = .next t ∧ Passed s t ∧
      (∀ e, e ∈ (t.part s.w.id.part).tlb ↔ e ∈ p.tlb ∧ tlbHit p o (s.w.rdS a) e = false) ∧
      (t.part s.w.id.part).oldRoot = (if o = .all ∨ o = .asid ∧ (s.w.rdS a).toNat % 2 ^ 16 = p.asid then none else p.oldRoot) ∧ ∀ q, q ≠ s.w.id.part → t.part q = s.part q)) ∧
  (∀ (c : Ctl) (a : SIdx) (s : State), s.w.smode = true → Ready { ssrc := [(a, luA c)] } s →
    (256 ≤ (s.w.rdS a).toNat → exec (.ctrsel c a) s = .next (takeTrap s { code := 1, sub := 2 })) ∧
    ((s.w.rdS a).toNat < 256 → ∃ t, exec (.ctrsel c a) s = .next t ∧ Passed s t ∧
      t.core s.w.core = { s.core s.w.core with ctrPage := (s.w.rdS a).toNat }) ∧
    (gangWarp s (s.w.rdS a) = none → ∃ t, exec (.tabort c a) s = .next t ∧ Passed s t ∧ t.clusters = s.clusters) ∧
    (∀ w, gangWarp s (s.w.rdS a) = some w → KeysOk s → s.w.stalled = false →
      (∀ o ∈ w.ops, o.done = true ∨ o.cls ≠ .tl ∧ o.k ≠ .put ∧ ∀ cl q, o.k ≠ .land cl q) →
      (∀ e ∈ (s.cluster w.cluster).leases, ∀ q ∈ e.2.queue, q.warp ≠ w.key) →
      ∃ t, exec (.tabort c a) s = .next t ∧ t.w.p = s.w.p.step s.ilen ∧ t.mem = s.mem)) ∧
  (∀ (c : Ctl) (d a b : SIdx) (s : State), s.w.smode = true →
    let u : Use := { ssrc := [(a, luA c), (b, luB c)], sdst := [d], cls := some .st }
    Ready u s → ∃ t, exec (.aszrec c d a b) s = .next t ∧ RegsKept s t u ∧ (d ≠ 0 → t.w.pendingS d = true) ∧
      Issued s t { id := 0, cls := .st, k := .aszrec (s.w.rdS a) (s.w.rdS b), dst := .sca d, pc := s.w.p.pc })

namespace Sys2Proof.Stmt
open Sys2Proof.Machine

/-! ## What happens without an instruction: cores and completions (spec/02 to spec/06, spec/18) -/

/-- A warp with one outstanding operation, which is not complete. -/
def Only (s : State) (w : Warp) (o : Op) : Prop :=
  s.warp? s.arg.warp = some w ∧ w.key = s.arg.warp ∧ w.ops = [o] ∧ o.id = s.arg.op ∧ o.done = false
/-- An access that has not been served, written or arrived, of clean data that is no counter bank's. -/
def Fresh (s : State) (w : Warp) (o : Op) (a : Acc) : Prop :=
  a.val = none ∧ a.applied = false ∧ a.arr = none ∧ accBad s w.core o.sp a = false ∧ inBank s w a = false
/-- What the home or the bank holds where an access reads. -/
def held (s : State) (w : Warp) (o : Op) (a : Acc) : Nat :=
  if o.sp then (s.core w.core).sp.readN a.addr a.n else readPhys s a.dom a.addr a.n
/-- R246: a scalar load extends by its width. -/
def scalarOf (wd : Wid) (v : Nat) : Word :=
  match wd with
  | .i8 => (BitVec.ofNat 8 v).signExtend 64
  | .i16 => (BitVec.ofNat 16 v).signExtend 64
  | _ => BitVec.ofNat 64 v
/-- R244: a vector load of at most 32 bits. -/
def laneOf (wd : Wid) (v : Nat) : Lane :=
  match wd with
  | .i8 => (BitVec.ofNat 8 v).signExtend 32
  | .i16 => (BitVec.ofNat 16 v).signExtend 32
  | _ => BitVec.ofNat 32 v
/-- The baton of one warp of a core has gone to another, whose slot issues nothing in the next cycle (R27). -/
def BatonMoved (t : State) (w : Warp) (n : Nat) : Prop :=
  ∃ w' v, t.warp? w.key = some w' ∧ w'.baton = none ∧ t.warp? (32 * w.core + n) = some v ∧ v.baton = w.baton ∧ v.tenure = 0 ∧ v.busy = 2

end Sys2Proof.Stmt

/-- R34 to R38, R50, R61 to R63, R89, R128, R367: what the core and chain time do between instructions. -/
def Obligations.CoreHappenings : Prop :=
  -- R61: a waiter whose increase fits is granted
  (∀ (s : State) (w : Warp) (r : Nat × Nat), s.blockWarps s.arg.core = [w] → s.warp? w.key = some w → waitsHeader w = true →
    w.entry = none → headerNeed s w = some r → fits s w r = true → ∃ t w', exec .reservationGrant s = .next t ∧
      t.warp? w.key = some w' ∧ w'.resV = r.1 ∧ w'.resS = r.2 ∧ w'.wait = .none ∧ w'.owed = none) ∧
  -- R62, R63: spilling changes no register's value
  (∀ s : State, KeysOk s → (∀ v ∈ s.allWarps, v.entry = none) → ∃ t, exec .spill s = .next t ∧
    ∀ k v, s.warp? k = some v → ∃ v', t.warp? k = some v' ∧ (∀ r, v'.rdS r = v.rdS r) ∧ ∀ r L, v'.lane r L = v.lane r L) ∧
  -- R34, R35, R36: slips and tenure transfers
  (∀ (s : State) (w v : Warp) (n : Nat), s.warp? s.arg.warp = some w → w.key = s.arg.warp → canForce w = true → n ≠ w.idx →
    receiver (s.setWarp s.arg.warp { w with forced := none }) w.core w.idx = some n → s.warp? (32 * w.core + n) = some v →
    (∃ t, exec .slip s = .next t ∧ BatonMoved t w n ∧ (t.warp? w.key).map Warp.slips = some (min (w.slips + 1) (2 ^ 32 - 1))) ∧
    ∃ t, exec .tenureTransfer s = .next t ∧ BatonMoved t w n ∧ (t.warp? w.key).map Warp.slips = some w.slips) ∧
  (∀ (s : State) (w : Warp), s.warp? s.arg.warp = some w → w.key = s.arg.warp → canForce w = true →
    receiver (s.setWarp s.arg.warp { w with forced := none }) w.core w.idx = none →
    ∃ t w', exec .slip s = .next t ∧ t.warp? w.key = some w' ∧ w'.baton = w.baton ∧ w'.idle = 0 ∧ w'.slips = w.slips) ∧
  -- R38: an age passes the limit
  (∀ (s : State) (w : Warp), s.warp? s.arg.warp = some w → w.eligible = true → w.age = Config.rescueAge →
    ∃ t, exec .starvationRescue s = .next t ∧ t.warp? s.arg.warp = some { w with age := Config.rescueAge + 1 }) ∧
  -- R50, R88: a path switch; what the paths have recorded at tile names stays
  (∀ (s : State) (w : Warp) (q : Path) (i : Instr), (i = .pathSwitchStall ∨ i = .pathAgeingSwitch) → s.warp? s.arg.warp = some w →
    s.arg.path ≠ w.pid → w.paths.get? s.arg.path = some q → ∃ t w', exec i s = .next t ∧ t.warp? s.arg.warp = some w' ∧
      w'.pid = s.arg.path ∧ w'.p = { q with issued := 0, age := 0 } ∧ w'.paths.get? w.pid = some { w.p with issued := 0, age := 0 } ∧
      w'.ldr = none ∧ w'.vregs = w.vregs ∧ w'.sregs = w.sregs ∧ w'.park = (w.parks.get? s.arg.path).map Prod.fst ∧
      ∀ pk, w.park = some pk → w'.parks.get? w.pid = some (pk, w.parkT)) ∧
  -- R89: the watchdog
  (∀ (s : State) (w : Warp), KeysOk s → s.warp? s.arg.warp = some w → w.key = s.arg.warp → w.park.isSome = true →
    Config.watchdog ≤ w.parkT → w.isStopped = false → w.life = .live →
    ∃ s', exec .tileWaitWatchdog s = .next (takeTrap s' { code := 8 }) ∧ s'.w.key = w.key ∧ s'.w.park = none ∧ s'.w.p = w.p) ∧
  -- R367, R257: at most WAVE waiting warps resume, each past its sync
  (∀ s : State, KeysOk s → s.arg.sel ≠ 1 → (s.core s.arg.core).waveT = 0 → openWaiters s s.arg.core ≠ [] →
    let n := if (s.core s.arg.core).slope = 0 then (openWaiters s s.arg.core).length else (s.core s.arg.core).slope
    ∃ t, exec .syncReleaseWave s = .next t ∧ (t.core s.arg.core).waveT = 8 ∧
      (∀ w ∈ (openWaiters s s.arg.core).take n, ∃ w', t.warp? w.key = some w' ∧
        (w.isStopped = false → w.stopped = false →
          w'.arrive = none ∧ w'.p = w.p.step 8 ∧ w'.busy = 2 ∧ w'.sregs = w.sregs ∧ w'.baton = w.baton ∧ ∀ o ∈ w'.ops, o.fills = []) ∧
        (w.isStopped = true ∨ w.stopped = true → w' = { w with arrive := w.arrive.map fun a => { a with go := true } })) ∧
      ∀ w ∈ (openWaiters s s.arg.core).drop n, t.warp? w.key = some w) ∧
  -- R128, R389: a tick of chain time; leases use their quota
  (∀ s : State, s.io.boot = none → ∃ t, exec .chainTimeTick s = .next t ∧ t = { s with tick := s.tick + 1, parts := t.parts, vdevs := t.vdevs } ∧
    ∀ pid p, s.parts.get? pid = some p → ∃ p', t.parts.get? pid = some p' ∧
      p' = { p with lease := { p.lease with used := p.lease.used + 2 * (s.clusters.map fun e => grains e.2 fun l => l.part == pid).sum } })

/-- R22, R23, R25, R33, R347 to R350: blocks start and retire; warps stop for a pre-emption, the supervisor's handler is entered, and a
core whose handler runs out of time is saved by force. -/
def Obligations.BlocksAndPreemption : Prop :=
  (∀ (s : State) (gk core : Nat) (g : Gang), blockDue s s.arg.cluster = true → gangToStart s s.arg.cluster = some (gk, g) →
    freeCore s s.arg.cluster = some core → s.w.real = false →
    let l := s.launch g.lid
    l.id.dictcount = 0 → (s.part l.part).held = false →
    ∃ t b, exec .blockStart s = .next t ∧ (t.core core).block = some b ∧ b.lid = l.lid ∧ b.gang = g.gang ∧ b.block = g.started ∧
      b.nwarps = l.id.nwarps ∧ (t.gangs.get? gk).map Gang.started = some (g.started + 1) ∧
      ∀ i, i < l.id.nwarps → ∃ w, t.warp? (32 * core + i) = some w ∧ w.idx = i ∧ w.id.block = g.started ∧ w.life = .live ∧
        w.p.pc = l.id.entry ∧ w.p.atHdr = true ∧ w.p.exec = allLanes l.id.W ∧ w.vregs = [] ∧ w.sregs = [] ∧
        w.fsucc = (i + 1) % max 1 l.id.nwarps ∧ w.baton = (if i < min l.batons l.id.nwarps then some i else none)) ∧
  (∀ (s : State) (b : Block) (g : Gang), retireDue s s.arg.core = true → (s.core s.arg.core).block = some b →
    s.gangs.get? (State.gangKey b.lid b.gang) = some g →
    ¬ (g.retired + 1 = g.started ∧ (g.started = (s.launch b.lid).id.nblocks ∨ g.ended.isSome = true)) →
    ∃ t, exec .blockRetire s = .next t ∧ (t.core s.arg.core).block = none ∧ (t.launch b.lid).blocks = (s.launch b.lid).blocks + 1 ∧
      (t.gangs.get? (State.gangKey b.lid b.gang)).map Gang.retired = some (g.retired + 1) ∧
      ∀ w ∈ s.blockWarps s.arg.core, w.lctd ≤ (t.launch b.lid).lctd) ∧
  (∀ (s : State) (w : Warp), s.warp? s.arg.warp = some w → w.key = s.arg.warp → w.stopReq = true → w.smode = false → w.life = .live →
    w.inv = none → (w.isStopped = true ∨ w.holding = false) → startedReads w = false →
    ∃ t w', exec .preemptStop s = .next t ∧ t.warp? w.key = some w' ∧
      w'.stopped = true ∧ w'.stopReq = false ∧ w'.ldr = none ∧ w'.p = w.p ∧ w'.park = none) ∧
  -- R70: not before an instruction that has started its element reads
  (∀ (s : State) (w : Warp), s.warp? s.arg.warp = some w → startedReads w = true → safePoint (s.focus w.key) = false → w.key = s.arg.warp →
    exec .preemptStop s = .next s) ∧
  (∀ (s : State) (w : Warp), KeysOk s → handlerDue s s.arg.core = true → lowestLive s s.arg.core = some w →
    ∃ s', exec .preemptHandlerEntry s = .next (takeTrap s' { code := 0x20 }) ∧ s'.w.key = w.key ∧ s'.w.p = w.p ∧ s'.w.stopped = false ∧
      s'.w.halted = false ∧ s'.w.perched = false) ∧
  (∀ (s : State) (b : Block), KeysOk s → forcedDue s s.arg.core = true → coreQuiet s s.arg.core = true →
    (∀ w ∈ s.blockWarps s.arg.core, w.life ≠ .live ∨ preStopped w = true) → (s.core s.arg.core).block = some b →
    (∀ e ∈ (s.cluster (s.arg.core / 8)).leases, e.2.part ≠ (s.launch b.lid).part) →
    ∃ t x, exec .forcedSave s = .next t ∧ (t.core s.arg.core).block = none ∧ (t.core s.arg.core).away = true ∧
      (t.core s.arg.core).saved.get? (s.launch b.lid).vdev = some x ∧ x.notice = true ∧ x.block = some b ∧
      x.sp = (s.core s.arg.core).sp ∧ x.warps = (s.blockWarps s.arg.core).map fun w => (w.key, w))

/-- R130, R131, R133, R136, R244 to R246, R252, R337: loads deliver what their home holds, but for what a younger write has taken (log 7);
a write is applied once chain time has passed its line's horizon; operations complete. -/
def Obligations.Completions : Prop :=
  (∀ (s : State) (w : Warp) (o : Op) (a : Acc) (wd : Wid) (d : SIdx), Only s w o → o.k = .load wd true → o.dst = .sca d → o.accs = [a] →
    Fresh s w o a → o.link = none → w.life = .live → ∃ t w', exec .loadComplete s = .next t ∧ t.warp? w.key = some w' ∧ w'.ops = [] ∧
      w'.rdS d = (if d = 0 then 0 else if o.left.1 = 0 then w.rdS d else scalarOf wd (held s w o a)) ∧
      (d ≠ 0 → o.left.1 ≠ 0 → w'.pendingS d = false) ∧
      (∀ r, r ≠ d → w'.rdS r = w.rdS r) ∧ t.mem = s.mem) ∧
  (∀ (s : State) (w : Warp) (o : Op) (wd : Wid) (d : VIdx) (val : Acc → Nat), Only s w o → o.k = .load wd false → wd ≠ .w64 →
    o.dst = .vec d false → o.link = none → w.life = .live → o.port.1 = false → w.portOf d = none → w.W ≤ 64 →
    o.accs.Pairwise (fun x y => x.lane ≠ y.lane) → (∀ a ∈ o.accs, a.val = some (val a) ∧ a.bad = false ∧ a.lane < w.W) →
    ∃ t w', exec .loadComplete s = .next t ∧ t.warp? w.key = some w' ∧ w'.ops = [] ∧ w'.pendingV d = false ∧ t.mem = s.mem ∧
      (∀ a ∈ o.accs, w'.lane d a.lane = if o.left.1.getLsbD a.lane then laneOf wd (val a) else w.lane d a.lane) ∧
      ∀ r L, (r ≠ d ∨ L < w.W ∧ ∀ a ∈ o.accs, a.lane ≠ L) → w.portOf r = none → w'.lane r L = w.lane r L) ∧
  (∀ (s : State) (w : Warp) (o : Op) (e : BitVec 3) (st : Stage), Only s w o → o.k = .stream e → o.dst = .stage →
    (∀ a ∈ o.accs, a.val.isSome = true) → w.p.stage = some st → st.op = o.id → ∃ t w' st', exec .streamElementsArrive s = .next t ∧
      t.warp? w.key = some w' ∧ w'.p.stage = some st' ∧ st'.arrived = true ∧ w'.ops = [] ∧ t.mem = s.mem) ∧
  (∀ (s : State) (w : Warp) (o : Op) (a : Acc), Only s w o → o.k = .store → o.link = none → o.accs = [a] → s.arg.unit = 0 → Fresh s w o a →
    s.arg.warp ≠ agentKey →
    (o.sp = true → ∃ t w', exec .writeApply s = .next t ∧ t.warp? w.key = some w' ∧ t.mem = s.mem ∧
      (t.core w.core).sp = (s.core w.core).sp.writeN a.addr a.n a.data ∧ s.now ≤ w'.lctb) ∧
    (o.sp = false → (∀ v ∈ s.allWarps, v.key ≠ w.key → v.ops = []) → s.ext = [] → KeysOk s → mappedReg s a.addr = none →
      (s.now < s.horizon.getD (a.addr / 64) 0 → ∃ t, exec .writeApply s = .next t ∧ t.mem = s.mem) ∧
      (s.horizon.getD (a.addr / 64) 0 ≤ s.now → sameKey s a.dom (a.addr / 64) = true → ∃ t w' o', exec .writeApply s = .next t ∧
        t.mem = s.mem.writeN a.addr a.n a.data ∧ t.warp? w.key = some w' ∧ w'.ops = [o'] ∧
        ∀ x ∈ o'.accs, x.applied = true ∧ x.at' = s.now))) ∧
  (∀ (s : State) (w : Warp) (o : Op), Only s w o → o.k = .store → (∀ a ∈ o.accs, a.applied = true) → ∃ t w',
    exec .writeComplete s = .next t ∧ t.warp? w.key = some w' ∧ w'.ops = [] ∧ t.mem = s.mem ∧ w'.sregs = w.sregs ∧
    (o.sp = false → ∀ a ∈ o.accs, a.at' + skew w.cluster a.home ≤ w'.lctg ∧ a.at' + domainSkew w.id.onePkg ≤ w'.lctd)) ∧
  (∀ (s : State) (w : Warp) (o : Op) (ok : Bool) (n : Nat) (d : SIdx), Only s w o → o.k = .stcon ok n → o.dst = .sca d → w.life = .live →
    (∀ a ∈ o.accs, a.applied = true) → ∃ t w', exec .writeComplete s = .next t ∧ t.warp? w.key = some w' ∧ w'.ops = [] ∧
      w'.rdS d = (if d = 0 then 0 else if o.left.1 = 0 then w.rdS d else if ok then 0 else 1) ∧
      (d ≠ 0 → o.left.1 ≠ 0 → w'.pendingS d = false)) ∧
  (∀ (s : State) (w : Warp) (o : Op) (a b : Word) (d : SIdx), Only s w o → o.k = .aszrec a b → o.dst = .sca d → w.life = .live →
    journalFull s = false → s.io.journal.buffer = [] → w.id.part ≠ 0xFF → ∃ t w' r, exec .writeComplete s = .next t ∧
      t.warp? w.key = some w' ∧ w'.rdS d = (if d = 0 then 0 else if o.left.1 = 0 then w.rdS d else BitVec.ofNat 64 (s.io.seq + 1)) ∧
      r ∈ t.io.journal.ring ∧
      r.seq = s.io.seq + 1 ∧ r.kind = 7 ∧ r.part = w.id.part ∧ r.words.take 2 = [a.toNat, b.toNat]) ∧
  (∀ (s : State) (w : Warp) (o : Op) (x : Window) (win p : Nat) (d : SIdx), Only s w o → o.k = .publish win p → o.dst = .sca d →
    w.life = .live → s.io.windows.get? win = some x → ∃ t w', exec .publishVersionWritten s = .next t ∧ t.warp? w.key = some w' ∧
      w'.ops = [] ∧ w'.rdS d = (if d = 0 then 0 else if o.left.1 = 0 then w.rdS d else BitVec.ofNat 64 (x.version + 1)) ∧
      t.io.hostMem = s.io.hostMem.writeN x.ctr 8 (x.version + 1) ∧ (t.io.windows.get? win).map Window.version = some (x.version + 1))

/-- R84, R87, R88, R90, R93, R263: the tile table takes rows, completes reads, drains names and voids those a definer has left. -/
def Obligations.TileHappenings : Prop :=
  (∀ (s : State) (w : Warp) (o : Op) (row : Nat) (data : List Byte), Only s w o → o.k = .twrite row data →
    let t0 := s.tile w.cluster o.name
    t0.st = .filling → t0.defc = o.tag → t0.orphan = false → t0.parked = [] →
    (t0.sealP = false → ∃ t w', exec .tileWriteAccept s = .next t ∧ t.warp? w.key = some w' ∧ w'.ops = [] ∧
      (t.tile w.cluster o.name).data = t0.data.put (64 * row) data ∧ (t.tile w.cluster o.name).writes = t0.writes - 1 ∧
      (t.tile w.cluster o.name).st = .filling) ∧
    (t0.sealP = true → t0.writes = 1 → ∃ t, exec .tileWriteAccept s = .next t ∧ (t.tile w.cluster o.name).st = .ready ∧
      (t.tile w.cluster o.name).void = false ∧ (t.tile w.cluster o.name).data = t0.data.put (64 * row) data)) ∧
  (∀ (s : State) (w : Warp) (o : Op) (row : Nat) (d : VIdx), Only s w o → o.k = .tread row → o.dst = .vec d false → o.link = none →
    w.life = .live → w.park = none → w.parks = [] → o.port.1 = false → w.portOf d = none → w.W ≤ 64 →
    let t0 := s.tile w.cluster o.name
    ∃ t w', exec .tileReadComplete s = .next t ∧ t.warp? w.key = some w' ∧ w'.ops = [] ∧ w'.pendingV d = false ∧
      (t.tile w.cluster o.name).reads = t0.reads - 1 ∧ (t0.void = true → w'.voidrd = true) ∧
      ∀ L, L < w.W → w'.lane d L = if o.left.1.getLsbD L then
        BitVec.ofNat 32 (leVal ((List.range 4).map fun i => tileByte t0 (64 * row + 4 * L + i))) else w.lane d L) ∧
  (∀ s : State,
    let t0 := s.tile s.arg.cluster s.arg.key
    (s.arg.key ≠ State.noName → t0.st = .draining → t0.reads = 0 → t0.parked = [] → ∃ t, exec .tileDrainComplete s = .next t ∧
      (t.tile s.arg.cluster s.arg.key).st = .free ∧ (t.tile s.arg.cluster s.arg.key).data = []) ∧
    (t0.st = .filling → t0.orphan = true → t0.writes = 0 → t0.parked = [] → ∃ t, exec .definerVoid s = .next t ∧
      (t.tile s.arg.cluster s.arg.key).st = .ready ∧ (t.tile s.arg.cluster s.arg.key).void = true ∧
      ∀ b, tileByte (t.tile s.arg.cluster s.arg.key) b = 0))

/-- R154, R155, R160 to R163, R171, R271, R274, R346: leases wake, vacate, are evicted and stop; retained state expires; commands run. -/
def Obligations.EngineHappenings : Prop :=
  (∀ (s : State) (l : Lease), s.lease? s.arg.cluster s.arg.key = some l →
    let after := fun (t : State) => t.lease? s.arg.cluster s.arg.key
    (l.st = .waking → l.wakeAt ≤ s.now → ∃ t, exec .leaseWake s = .next t ∧ after t = some { l with st := .live }) ∧
    (l.st = .evicted → l.stopping = true → l.queue = [] → (s.cluster s.arg.cluster).lost = [] → ∃ t, exec .engineStop s = .next t ∧
      after t = if l.gone then none else some { l with stopping := false, eng := { bfmt := l.eng.bfmt, shape := l.eng.shape } }) ∧
    (l.st = .vacating → l.queue = [] → l.cls ≠ .mx → parkedCmds s s.arg.cluster s.arg.key = 0 → ∃ t, exec .vacateComplete s = .next t ∧
      after t = none ∧ ⟨l.cls, l.inst, l.sh, l.lid, l.gang, s.now, l.eng, l.binding⟩ ∈ (t.cluster s.arg.cluster).retained) ∧
    (l.st ≠ .evicted → l.wakeAt ≤ s.now → l.queue = [] → ∃ t, exec .engineSramError s = .next t ∧
      (l.st ≠ .vacating → ∃ l', after t = some l' ∧ l'.st = .evicted ∧ l'.poison = true ∧
        l'.eng = { bfmt := l.eng.bfmt, shape := l.eng.shape }) ∧
      (l.st = .vacating → after t = none)) ∧
    -- MXZERO at the head of an awake lease
    (∀ (q : QCmd) (r : Nat), s.arg.ok = true → l.st = .live → l.wakeAt ≤ s.now → l.queue = [q] → q.c = .zero r → q.aborted = false → q.worked = false →
      q.bar = none →
      earlierOnArray s s.arg.cluster s.arg.key q = false → ∃ t, exec .engineCommandComplete s = .next t ∧
        after t = some { l with queue := [], eng := zeroRows l.eng r } ∧ t.mem = s.mem) ∧
    -- DMFILL of one double word of the scratchpad
    (∀ (q : QCmd) (a : Acc), s.arg.ok = true → l.st = .live → l.wakeAt ≤ s.now → l.queue = [q] → q.c = .fill true false → q.aborted = false →
      q.worked = false → q.bar = none → q.src = [] → q.dst = [a] → a.n = 8 → ∃ t, exec .engineCommandComplete s = .next t ∧
        (t.core (q.warp / 32)).sp = (s.core (q.warp / 32)).sp.writeN a.addr 8 (q.regs.getD 3 0).toNat ∧ t.mem = s.mem ∧
        after t = some { l with queue := [] }) ∧
    (∀ (q : QCmd) (tag : Nat), l.cls = .cl → l.st ≠ .evicted → l.queue = [q] → q.c = .bcast tag false → q.worked = false → q.bar = none →
      ∃ t, exec .collectiveAbort s = .next t ∧ after t = some { l with aborted := true, queue := [] })) ∧
  (∀ s : State, ∃ t, exec .retentionExpiry s = .next t ∧ ∀ r, r ∈ (t.cluster s.arg.cluster).retained ↔
    r ∈ (s.cluster s.arg.cluster).retained ∧
      (contexts (s.cluster s.arg.cluster) r.cls r.inst ≠ [] ∨ s.now < r.since + Config.retention)) ∧
  (∀ (s : State) (v : List (EngClass × Nat)), (s.cluster s.arg.cluster).leases.wf → evictFor s s.arg.cluster = some v →
    ∃ t, exec .leaseEviction s = .next t ∧ ∀ key l, s.lease? s.arg.cluster key = some l → (l.cls, l.inst) ∈ v → l.holds = true →
      ∀ l', t.lease? s.arg.cluster key = some l' → l'.st = .evicted)

namespace Sys2Proof.Stmt
open Sys2Proof.Machine

/-! ## The front end (spec/19, spec/20) -/

/-- Queue q is now x; every other queue, memory and the warps are as before. -/
def QueueIs (s t : State) (q : Nat) (x : Queue) : Prop :=
  queue t q = x ∧ (∀ j, j ≠ q → queue t j = queue s j) ∧ t.mem = s.mem ∧ t.warps = s.warps ∧ t.w = s.w
/-- What stays when only the parts of the IO die that a happening names change. -/
def OnlyIo (s t : State) : Prop := ∃ io, t = { s with io := io }

end Sys2Proof.Stmt

/-- R354 to R358: doorbells, the queue registers, the record a queue reads, what refuses it, the dependence. -/
def Obligations.QueueHappenings : Prop :=
  -- R355: a QTAIL that runs past the ring or below QHEAD is ignored
  (∀ s : State,
    let x := queue s s.arg.queue
    let v := s.arg.val.toNat % 2 ^ 32
    x.qhead < 2 ^ 32 →
    ((∃ n, n ≤ 2 ^ x.size ∧ x.size ≤ 12 ∧ v = (x.qhead + n) % 2 ^ 32) →
      ∃ t, exec .qtailDoorbell s = .next t ∧ QueueIs s t s.arg.queue { x with qtail := v }) ∧
    ((∀ n, n ≤ 2 ^ x.size → v ≠ (x.qhead + n) % 2 ^ 32) → exec .qtailDoorbell s = .next s)) ∧
  -- R354: QCTL
  (∀ s : State,
    let x := queue s s.arg.queue
    ∃ t, exec .qctlHaltedClear s = .next t ∧ QueueIs s t s.arg.queue (queue t s.arg.queue) ∧
      (queue t s.arg.queue).halted = (x.halted && !s.arg.val.getLsbD 63) ∧ (queue t s.arg.queue).prio = bits s.arg.val 5 4 ∧
      (s.io.ready = true → x.part ∉ s.io.enBarred → (queue t s.arg.queue).enable = s.arg.val.getLsbD 0) ∧
      (queue t s.arg.queue).qbase = x.qbase ∧ (queue t s.arg.queue).qhead = x.qhead ∧ (queue t s.arg.queue).qtail = x.qtail) ∧
  -- R354, R413: QBASE through BAR 0, by the function the queue belongs to and by no other
  (∀ (s : State) (q : Nat) (x : Queue), q < 256 → s.arg.addr = 0x10000 + 64 * q → s.io.ready = true → s.io.queues.get? q = some x →
    (s.arg.unit = x.vdev + 1 → ∃ t, exec .registerWrite s = .next t ∧
      QueueIs s t q { x with qbase := s.arg.val.toNat % 2 ^ 56 / 128 * 128 }) ∧
    (s.arg.unit ≠ x.vdev + 1 → exec .registerWrite s = .next s)) ∧
  -- R417: the arguments of a mailbox command
  (∀ (s : State) (n : Nat), n < 30 → s.arg.addr = 0x1010 + 8 * n → s.arg.unit = 0 → s.io.mbox.args.length = 30 →
    ∃ t, exec .registerWrite s = .next t ∧ OnlyIo s t ∧ t.io.mbox.args.getD n 0 = s.arg.val ∧
      ∀ j, j ≠ n → t.io.mbox.args.getD j 0 = s.io.mbox.args.getD j 0) ∧
  -- R355, R356, R358: the record at QHEAD
  (∀ (s : State) (r : List Word),
    let q := s.arg.queue
    let x := queue s q
    let y := { x with qhead := (x.qhead + 1) % 2 ^ 32 }
    let lid := launchId s.io.ident.furid q x.qhead
    recordDue s q = true →
    readWords s (partAgent s x.part x.vdev true) .load (x.qbase + 128 * (x.qhead % 2 ^ x.size)) 16 = .ok r →
    (∀ n, refusal (setQueue s q y) x.part x.vdev r = some n → ∃ t, exec .launchRecordRead s = .next t ∧ t.launches = s.launches ∧
      QueueIs s t q { y with halted := true, status := 4, reason := n, qdone := (x.qdone + 1) % 2 ^ 32 }) ∧
    (refusal (setQueue s q y) x.part x.vdev r = none → s.io.replay = none → ∃ t l, exec .launchRecordRead s = .next t ∧
      QueueIs s t q y ∧ t.launches.get? lid.toNat = some l ∧ l.lid = lid ∧ l.queue = q ∧ l.part = x.part ∧ l.vdev = x.vdev ∧
      l.stage = (if (rw r 12).getLsbD 26 then .waiting else .ready) ∧ l.id.entry = (rw r 0).toNat / 2 * 2 ∧
      l.id.W = bits (rw r 12) 6 0 ∧ l.waitaddr = (rw r 8).toNat ∧ l.waitval = rw r 9 ∧ l.sigaddr = (rw r 10).toNat ∧ l.sigval = rw r 11 ∧
      (t.part x.part).launches.used = (s.part x.part).launches.used + 1)) ∧
  (∀ s : State, (queue s s.arg.queue).halted = true ∨ (queue s s.arg.queue).enable = false ∨
    (queue s s.arg.queue).qhead = (queue s s.arg.queue).qtail → exec .launchRecordRead s = .next s) ∧
  -- R356, R358 reason 8: the word at WAITADDR
  (∀ (s : State) (l : Launch), s.launches.get? s.arg.lid.toNat = some l → l.stage = .waiting →
    (∀ v, readVirt s (partAgent s l.part l.vdev false) .load l.waitaddr 8 = .ok v →
      (l.waitval.toNat ≤ v → ∃ t, exec .waitaddrPoll s = .next t ∧
        t = { s with launches := s.launches.put s.arg.lid.toNat { l with stage := .ready } }) ∧
      (v < l.waitval.toNat → exec .waitaddrPoll s = .next s)) ∧
    (∀ c, c = 0x04 ∨ c = 0x05 ∨ c = 0x30 → readVirt s (partAgent s l.part l.vdev false) .load l.waitaddr 8 = .error c →
      ∃ t, exec .waitaddrPoll s = .next t ∧ t.launches.get? s.arg.lid.toNat = none ∧
        QueueIs s t l.queue { queue s l.queue with halted := true, status := 4, reason := 8, qdone := ((queue s l.queue).qdone + 1) % 2 ^ 32 }))

/-- R359 to R361: a gang is placed on the lowest cluster that can take it, at the lowest window that overlaps no other; a launch ends
with the first status that applies, and is then counted. -/
def Obligations.PlacementAndEnd : Prop :=
  (∀ (s : State) (l : Launch) (rank : Nat) (r : RankEnt) (cl : Nat),
    let die := s.arg.unit
    placeable s die = some l → rankOf s l die = some (rank, r) → 8 * die ≤ cl → cl < 8 * die + 8 → takes s l cl = true →
    (∀ c, 8 * die ≤ c → c < cl → takes s l c = false) →
    let fits := fun (tn : Nat) => tn + l.tiles ≤ 4096 ∧
      ∀ g ∈ windows s cl, g.tncount = 0 ∨ l.tiles = 0 ∨ tn + l.tiles ≤ g.tnbase ∨ g.tnbase + g.tncount ≤ tn
    ∃ t tn, exec .gangPlacement s = .next t ∧ fits tn ∧ (∀ tn', tn' < tn → ¬ fits tn') ∧
      t.gangs.get? (State.gangKey l.lid (r.gbase + l.next.getD die 0)) =
        some { lid := l.lid, gang := r.gbase + l.next.getD die 0, cluster := cl, tnbase := tn, tncount := l.tiles } ∧
      (t.launch l.lid).next.getD die 0 = l.next.getD die 0 + 1 ∧ t.mem = s.mem ∧ t.warps = s.warps ∧
      ∀ k, k ≠ State.gangKey l.lid (r.gbase + l.next.getD die 0) → t.gangs.get? k = s.gangs.get? k) ∧
  (∀ (s : State) (l : Launch), s.launches.get? s.arg.lid.toNat = some l → s.io.replay = none → s.io.capture = none → l.sigen = false →
    l.stage = .running → ownGangs s l ≤ l.ended → journalFull s = false →
    (l.lctd < s.now → ∃ t l', exec .launchEnd s = .next t ∧ t.launches.get? s.arg.lid.toNat = some l' ∧ t.mem = s.mem ∧
      l'.stage = .ended ∧ l'.image = none ∧
      l'.status = (if l.double then 3 else if l.aborted then 2 else if l.fault then 1 else 0)) ∧
    (s.now ≤ l.lctd → exec .launchEnd s = .next s)) ∧
  (∀ (s : State) (l : Launch), s.launches.get? s.arg.lid.toNat = some l → l.stage = .ended → signalSeen s l = true →
    ∃ t, exec .launchDoneCount s = .next t ∧ t.launches.get? s.arg.lid.toNat = none ∧ (∀ e ∈ t.gangs, e.2.lid ≠ s.arg.lid) ∧
      QueueIs s t l.queue { queue s l.queue with status := l.status, qdone := ((queue s l.queue).qdone + 1) % 2 ^ 32 }) ∧
  (∀ (s : State) (l : Launch), s.launches.get? s.arg.lid.toNat = some l → (l.stage ≠ .ended ∨ l.sigen = true ∧ l.doneAt = none) →
    exec .launchDoneCount s = .next s)

/-- R366, R347, R351, R352, R393, R392: slices end and begin; quotas are exhausted and lifted; the 1 ms window. -/
def Obligations.SlicesAndQuotas : Prop :=
  (∀ s : State, KeysOk s → sliceOver s s.arg.part = true → ∃ t, exec .sliceEnd s = .next t ∧ (t.part s.arg.part).ending = true ∧
    (t.part s.arg.part).cur = (s.part s.arg.part).cur ∧ t.mem = s.mem ∧
    ∀ c ∈ partCores s s.arg.part, (t.core c).pre = some {} ∧ (t.core c).left = (t.core c).budget ∧
      ∀ w ∈ s.blockWarps c, w.life = .live → t.warp? w.key = some { w with stopReq := true }) ∧
  (∀ s : State,
    let p := s.part s.arg.part
    let n := nextVdev p
    sliceReady s s.arg.part = true → n ≠ p.cur → (∀ c, coreIn s s.arg.part c = true → (s.core c).saved.get? (4 * s.arg.part + n) = none) →
    (∀ cl ∈ partClusters p, ∀ e ∈ (s.cluster cl).leases, e.2.part ≠ s.arg.part) →
    ∃ t, exec .sliceStart s = .next t ∧ t.part s.arg.part = { p with ending := false, cur := n, sliceT := s.now + 1000 * p.slice } ∧
      t.mem = s.mem ∧ t.warps = s.warps ∧ t.launches = s.launches ∧
      (∀ k g, s.gangs.get? k = some g → (s.launch g.lid).part = s.arg.part →
        ((s.launch g.lid).vdev = 4 * s.arg.part + p.cur → t.gangs.get? k = some { g with away := true }) ∧
        ((s.launch g.lid).vdev = 4 * s.arg.part + n → t.gangs.get? k = some { g with away := false })) ∧
      ∀ c, coreIn s s.arg.part c = true → s.cores.has c = true → (t.core c).away = false) ∧
  (∀ s : State, quotaNew s s.arg.part = [] → ∃ t, exec .quotaExhausted s = .next t ∧ t.warps = s.warps ∧ t.w = s.w ∧ t.mem = s.mem ∧
    ∀ k, k < 3 → (t.part s.arg.part).qexh.getLsbD k = quotaSpent s s.arg.part k) ∧
  (∀ s : State, quotaNew s s.arg.part ≠ [] → (∀ e ∈ s.clusters, e.2.queue = []) → quotaWarp s s.arg.part = none →
    ∃ t, exec .quotaExhausted s = .next t ∧ (t.part s.arg.part).held = true ∧ t.warps = s.warps ∧ t.w = s.w ∧
      ∀ k, k < 3 → (t.part s.arg.part).qexh.getLsbD k = quotaSpent s s.arg.part k) ∧
  (∀ (s : State) (w : Warp), KeysOk s → quotaNew s s.arg.part ≠ [] → (∀ e ∈ s.clusters, e.2.queue = []) → quotaWarp s s.arg.part = some w →
    ∃ s', exec .quotaExhausted s = .next (takeTrap s' { code := 0x31 }) ∧ s'.w = { toHandler w with stopReq := w.stopReq || w.stopped } ∧
      ∀ k, k < 3 → (s'.part s.arg.part).qexh.getLsbD k = quotaSpent s s.arg.part k) ∧
  (∀ s : State, (s.now < s.io.windowEnd → exec .furlongWindow s = .next s) ∧
    (s.io.windowEnd ≤ s.now → ∃ t, exec .furlongWindow s = .next t ∧ t.io.windowEnd = s.io.windowEnd + 1000000 ∧ t.mem = s.mem ∧
      t.warps = s.warps ∧ ∀ k p, s.parts.get? k = some p →
        t.parts.get? k = some { p with furlong := { p.furlong with used := 0 }, qexh := p.qexh &&& 0xF#5 }))

/-- R363, R364, R369, R371: a rail rises a step every 10 µs and holds 2 ms before it falls; a cluster switches its clock once the rail
meets its class, and is gated where it is out of use below it. -/
def Obligations.RailsAndClocks : Prop :=
  (∀ s : State, s.arg.sel < s.io.rails.length →
    let r := rail s s.arg.sel
    (r.hold = none → r.t ≤ s.now →
      (r.steps < r.target → ∃ t, exec .railStep s = .next t ∧ OnlyIo s t ∧ rail t s.arg.sel = { r with steps := r.steps + 1, t := r.t + 10000 }) ∧
      (r.target < r.steps → ∃ t, exec .railStep s = .next t ∧ OnlyIo s t ∧ rail t s.arg.sel = { r with steps := r.steps - 1, t := r.t + 10000 })) ∧
    ((r.hold.isSome = true ∨ r.steps = r.target ∨ s.now < r.t) → exec .railStep s = .next s) ∧
    (∀ h, r.hold = some h → (h ≤ s.now → ∃ t, exec .railHoldEnd s = .next t ∧ OnlyIo s t ∧
        rail t s.arg.sel = { r with hold := none, t := h + 10000 }) ∧
      (s.now < h → exec .railHoldEnd s = .next s)) ∧
    (r.hold = none → exec .railHoldEnd s = .next s)) ∧
  (∀ s : State,
    let c := s.cluster s.arg.cluster
    let volt := s.volt (s.arg.cluster / 8)
    let need := [112, 120, 128, 140].getD c.pool 140
    (s.betweenCycles s.arg.cluster = false → exec .clockSwitch s = .next s) ∧
    (s.betweenCycles s.arg.cluster = true → ∃ t, exec .clockSwitch s = .next t ∧ t.io = s.io ∧ t.warps = s.warps ∧ t.mem = s.mem ∧
      (∀ k, k ≠ s.arg.cluster → t.cluster k = s.cluster k) ∧
      -- out of use, with the rail below its requirement, or with a floor that is to fall below it
      (inUse s s.arg.cluster = false → (volt < need ∨ useFloor s (s.arg.cluster / 16) < need) → t.cluster s.arg.cluster = { c with gate := true }) ∧
      (need ≤ volt → (inUse s s.arg.cluster = true ∨ need ≤ useFloor s (s.arg.cluster / 16)) →
        t.cluster s.arg.cluster = { c with clk := c.pool, gate := false }) ∧
      (volt < need → inUse s s.arg.cluster = true → t.cluster s.arg.cluster = if c.pool < c.clk then { c with clk := c.pool } else c))) ∧
  -- the target follows the floor and the votes
  (∀ (s : State) (k : Nat), k < s.io.rails.length →
    let r := rail s k
    let n := railTarget s k
    104 ≤ n ∧ (∀ v ∈ railVotes s k, v ≤ n) ∧ (∀ cl ∈ railClusters k, inUse s cl = true → requirement (s.cluster cl).pool ≤ n) ∧
    -- a cluster counts until its clock is lowered or gated
    (∀ cl ∈ railClusters k, s.clusters.has cl = true → (s.cluster cl).gate = false →
      requirement (max (s.cluster cl).pool (s.cluster cl).clk) ≤ n) ∧
    (rail (railFollow s k) k).target = n ∧ (rail (railFollow s k) k).steps = r.steps ∧
    (r.target < n → (rail (railFollow s k) k).hold = none) ∧
    (n < r.target → (rail (railFollow s k) k).hold = some (s.now + 2000000)))

namespace Sys2Proof.Stmt
open Sys2Proof.Machine

/-! ## The host, the ports and the Perch session (spec/21) -/

/-- The byte at a BAR 2 offset of the happening's function lies in a window, on a page of the window's partition. -/
def InWindow (s : State) (off : Nat) (x : Window) (e : Word) (pa : Nat) : Prop :=
  ∃ i va level, windowAtOff s (s.arg.unit - 1) off = some (i, x, va) ∧ walk s (s.part x.part) va = .leaf e level ∧
    pa = ptePA e + va % levelSize level
/-- The session is bound to the launch's partition and names the live warp w. -/
def Session (s : State) (w : Warp) : Prop :=
  KeysOk s ∧ bound s = true ∧ foreign s = false ∧ named s s.io.perch.stopLid s.arg.val = some (.here w.key, w) ∧ w.life = .live
/-- The warp in the saved context of a virtual device; the session names it. -/
def savedWarp (s : State) (core vd k : Nat) : Option Warp := ((s.core core).saved.get? vd).bind fun x => x.warps.get? k
def SessionSaved (s : State) (core vd k : Nat) (w : Warp) : Prop :=
  bound s = true ∧ foreign s = false ∧ named s s.io.perch.stopLid s.arg.val = some (.saved core vd k, w) ∧ savedWarp s core vd k = some w ∧
  w.life = .live
/-- After a command on a warp in a saved context: STOPST, and the warp. -/
def AfterSaved (s t : State) (core vd k st : Nat) (w' : Warp) : Prop :=
  t.io.perch.stopSt = st ∧ savedWarp t core vd k = some w' ∧ t.warps = s.warps ∧ t.w = s.w ∧ t.mem = s.mem
/-- After a command of the session: STOPST, and the warp. -/
def After (t : State) (w : Warp) (st : Nat) (w' : Warp) : Prop := t.io.perch.stopSt = st ∧ t.warp? w.key = some w' ∧ w'.vregs = w.vregs ∧ w'.sregs = w.sregs ∧ w'.p.pc = w.p.pc
/-- A trace record goes nowhere. -/
def NoRing (s : State) : Prop := s.io.perch.trCtl.getLsbD 0 = false

end Sys2Proof.Stmt

/-- R148, R382, R413, R415: reads and writes of the host through BAR 2, and the descriptors that open windows. -/
def Sys2Proof.Stmt.HostWindows : Prop :=
  (∀ s : State, (s.arg.unit = 0 ∨ s.io.ready = false) → ∃ t, exec .hostWindowRead s = .next t ∧ t.mem = s.mem ∧
    t.arg.bytes = List.replicate s.arg.len 0xFF) ∧
  (∀ (s : State) (off : Nat), s.arg.unit ≠ 0 → s.io.ready = true → s.arg.len = 1 → s.arg.off = off →
    (windowAtOff s (s.arg.unit - 1) off = none → ∃ t, exec .hostWindowRead s = .next t ∧ t.arg.bytes = [0xFF] ∧ t.mem = s.mem) ∧
    ∀ x e pa, InWindow s off x e pa →
      -- R146: a page of the range without PUBW is no part of the window
      (ptePubw e = false → ∃ t, exec .hostWindowRead s = .next t ∧ t.arg.bytes = [0xFF] ∧ t.mem = s.mem) ∧
      (ptePubw e = true → hostPasses s x.part pa = true → pa / 64 ∉ s.memPoison → pa < 2 ^ 56 →
        ∃ t, exec .hostWindowRead s = .next t ∧ t = { s with arg := t.arg } ∧ t.arg.ok = true ∧
          -- the byte before a later write that no version covers yet, else the byte at its home
          t.arg.bytes = [match x.later.find? fun f => f.2.1 == pa with
            | some f => f.2.2
            | none => BitVec.ofNat 8 (readPhys s (pteDom e) pa 1)]) ∧
      (ptePubw e = true → hostPasses s x.part pa = false → pa < 2 ^ 56 → ∃ t, exec .hostWindowRead s = .next t ∧ t.arg.bytes = [0xFF] ∧ t.arg.ok = false ∧
        t.mem = s.mem ∧ (t.part x.part).fwlog = true ∧ (t.part x.part).fwcount = (s.part x.part).fwcount + 1)) ∧
  (∀ (s : State) (b : Byte), s.arg.unit ≠ 0 → s.io.ready = true → s.arg.bytes = [b] →
    (windowAtOff s (s.arg.unit - 1) s.arg.off = none → exec .hostWindowWrite s = .next s) ∧
    ∀ x e pa, InWindow s s.arg.off x e pa →
      (ptePubw e = false → exec .hostWindowWrite s = .next s) ∧
      -- R130: a write waits at its home for the horizon, and is applied past it where none stands before it
      (ptePubw e = true → hostPasses s x.part pa = true → s.ext = [] → s.now < s.horizon.getD (pa / 64) 0 →
        ∃ t o, exec .hostWindowWrite s = .next t ∧ t.mem = s.mem ∧ t.ext = [o] ∧
          o.accs.map (fun a => (a.addr, a.n, a.data)) = [(pa, 1, b.toNat)]) ∧
      (ptePubw e = true → hostPasses s x.part pa = true → s.ext = [] → s.horizon.getD (pa / 64) 0 ≤ s.now →
        lineWaits s (pa / 64) = false → sameKey s (pteDom e) (pa / 64) = true →
        ∃ t, exec .hostWindowWrite s = .next t ∧ t.mem = s.mem.set pa b ∧ t.ext = []) ∧
      (ptePubw e = true → hostPasses s x.part pa = false →
        ∃ t, exec .hostWindowWrite s = .next t ∧ t.mem = s.mem ∧ (t.part x.part).fwlog = true)) ∧
  (∀ s : State, s.arg.unit ≠ 0 → s.arg.sel < 64 → s.io.ready = true →
    let va := s.arg.addr % 2 ^ 64 / 4096 * 4096
    let n := s.arg.len % 2 ^ 32
    let k := 64 * (s.arg.unit - 1) + s.arg.sel
    ∃ t x, exec .publicationDescriptorWrite s = .next t ∧ OnlyIo s t ∧ t.io.windows.get? k = some x ∧ x.va = va ∧ x.ctr = s.arg.val.toNat ∧
      x.off = s.arg.off / 4096 * 4096 ∧ x.part = (s.arg.unit - 1) / 4 ∧ (∀ j, j ≠ k → t.io.windows.get? j = s.io.windows.get? j) ∧
      (x.len = 0 → x.live = none) ∧ (n = 0 ∨ overlaps s (s.arg.unit - 1) s.arg.sel va n = true → x.len = 0) ∧
      (n ≠ 0 → overlaps s (s.arg.unit - 1) s.arg.sel va n = false → x.len = n ∧
        ((s.io.windows.getD k {}).len = 0 → x.version = 0 ∧ x.later = [] ∧ x.live = none)))

/-- R150, R416: states of a Furlong port; that a port in training is a happening of its own is the model's (log 20). -/
def Sys2Proof.Stmt.PortHappenings : Prop :=
  ∀ s : State,
    let n := s.arg.unit
    let p := port s n
    let is := fun (t : State) (x : Port) => OnlyIo s t ∧ port t n = x ∧ ∀ j, j ≠ n → port t j = port s j
    n < 36 →
    (p.state ≠ 0 → s.arg.list = [] → ∃ t, exec .furlongPortDown s = .next t ∧ is t { p with state := 0, downs := (p.downs + 1) % 2 ^ 64 }) ∧
    (p.state = 0 → exec .furlongPortDown s = .next s) ∧
    (p.state = 0 → ∃ t, exec .furlongPortUp s = .next t ∧ is t { p with state := 1 }) ∧
    (p.state = 1 → ∃ t, exec .furlongPortUp s = .next t ∧ is t (port t n) ∧ (port t n).state = 2 ∧ (port t n).downs = p.downs ∧
      (port t n).txseq = p.txseq ∧ ((port t n).lanes < 4)) ∧
    (2 ≤ p.state → exec .furlongPortUp s = .next s ∧
      (∃ t, exec .furlongPortDegraded s = .next t ∧ is t { p with state := 3, lanes := (s.arg.len - 1) % 4 }) ∧
      ∃ t, exec .flitRetry s = .next t ∧ is t { p with retry := (p.retry + 1) % 2 ^ 64 }) ∧
    (p.state < 2 → exec .furlongPortDegraded s = .next s ∧ exec .flitRetry s = .next s)

/-- R148, R150, R382, R413 to R416: the host through BAR 2, and the Furlong ports. -/
def Obligations.HostAndPorts : Prop := Stmt.HostWindows ∧ Stmt.PortHappenings

/-- R402, R408, R409: stops, holds, releases and breakpoints of a session. -/
def Obligations.PerchStops : Prop :=
  -- whom a command finds
  (∀ (i : Instr) (s : State), (i = .perchWarpStop ∨ i = .perchPathHold ∨ i = .perchReleaseWarp ∨ i = .perchReleasePath) →
    (bound s = false → exec i s = .next s) ∧
    (bound s = true → foreign s = true → ∃ t, exec i s = .next t ∧ OnlyIo s t ∧ t.io.perch.stopSt = 3 ∧ t.io.perch.err = true) ∧
    (bound s = true → foreign s = false → named s s.io.perch.stopLid s.arg.val = none → ∃ t, exec i s = .next t ∧ OnlyIo s t ∧ t.io.perch.stopSt = 2)) ∧
  (∀ (s : State) (w : Warp), Session s w → NoRing s →
    (w.smode = false → ∃ t w', exec .perchWarpStop s = .next t ∧ After t w 0 w' ∧ w'.perched = true ∧ w'.perchReq = false ∧ t.mem = s.mem) ∧
    (w.smode = true → ∃ t w', exec .perchWarpStop s = .next t ∧ After t w 1 w' ∧ w'.perchReq = true ∧ w'.perched = w.perched ∧ t.mem = s.mem)) ∧
  (∀ (s : State) (w : Warp), Session s w → NoRing s →
    let e := bits s.arg.val 22 20
    (e ≠ w.pid → w.paths.get? e = none → ∃ t, exec .perchPathHold s = .next t ∧ t.io.perch.stopSt = 2 ∧ t.warps = s.warps ∧ t.w = s.w) ∧
    (∀ q, e ≠ w.pid → w.paths.get? e = some q → w.p.hold = false → ∃ t w', exec .perchPathHold s = .next t ∧ After t w 0 w' ∧
      w'.p = w.p ∧ w'.paths.get? e = some { q with hold := true } ∧ w'.perched = w.perched) ∧
    (e = w.pid → w.smode = false → w.inv = none → w.paths = [] → w.perched = false → ∃ t w', exec .perchPathHold s = .next t ∧
      After t w 0 w' ∧ w'.p.hold = true ∧ w'.perched = true)) ∧
  (∀ (s : State) (w : Warp), Session s w → NoRing s →
    (w.perched = true → ∃ t w', exec .perchReleaseWarp s = .next t ∧ After t w 0 w' ∧ w'.perched = false ∧ w'.perchReq = false ∧
      w'.p.past = some w.p.pc) ∧
    (w.perched = false → ∃ t w', exec .perchReleaseWarp s = .next t ∧ After t w 0 w' ∧ w' = { w with perchReq := false }) ∧
    (bits s.arg.val 22 20 = w.pid → w.heldAll = false → w.p.hold = true → ∃ t w', exec .perchReleasePath s = .next t ∧ After t w 0 w' ∧
      w' = { w with p := { w.p with hold := false, past := some w.p.pc } })) ∧
  -- a warp in a saved context is stopped and released where it is
  (∀ (s : State) (core vd k : Nat) (w : Warp), SessionSaved s core vd k w → NoRing s →
    (w.smode = false → w.perched = false → ∃ t, exec .perchWarpStop s = .next t ∧
      AfterSaved s t core vd k 0 { w with perched := true, perchReq := true, heldAll := false }) ∧
    (w.smode = true → w.perched = false → ∃ t, exec .perchWarpStop s = .next t ∧
      AfterSaved s t core vd k 1 { w with perchReq := true, heldAll := false }) ∧
    (w.perched = true → ∃ t, exec .perchReleaseWarp s = .next t ∧
      AfterSaved s t core vd k 0 { w with perched := false, perchReq := false, heldAll := false, p := { w.p with past := some w.p.pc } })) ∧
  (∀ s : State, KeysOk s → NoRing s → bound s = true → foreign s = false →
    let mine := fun (w : Warp) => w.id.lid = s.io.perch.stopLid ∧ w.id.part = s.io.perch.part
    ((∀ e ∈ sessionWarps s, e.2.id.lid ≠ s.io.perch.stopLid) → ∃ t, exec .perchReleaseAll s = .next t ∧ OnlyIo s t ∧ t.io.perch.stopSt = 2) ∧
    (∀ v ∈ s.allWarps, mine v → ∃ t, exec .perchReleaseAll s = .next t ∧ t.io.perch.stopSt = 0 ∧
      ∀ w ∈ s.allWarps, mine w → w.paths.wf → ∃ w', t.warp? w.key = some w' ∧ w'.perched = false ∧ w'.perchReq = false ∧ w'.p.hold = false ∧
        ∀ k q, w'.paths.get? k = some q → q.hold = false)) ∧
  (∀ (s : State) (w : Warp) (b : Word), KeysOk s → NoRing s → s.warp? s.arg.warp = some w → w.key = s.arg.warp → s.io.perch.part = w.id.part →
    w.life = .live → w.isStopped = false →
    (w.p.past ≠ some w.p.pc → w.p.hold = false → w.perchReq = false → (s.io.perch.bps.find? fun b => b.getLsbD 63 && (b.toNat % 2 ^ 56 / 2 * 2 == w.p.pc)) = some b →
      (b.getLsbD 62 = true → w.smode = false → ∃ t w', exec .breakpointHit s = .next t ∧ t.warp? w.key = some w' ∧ w'.perched = true ∧
        w'.p = w.p) ∧
      -- in S mode the stop comes after the TRET
      (b.getLsbD 62 = true → w.smode = true → ∃ t, exec .breakpointHit s = .next t ∧ t.warp? w.key = some { w with perchReq := true }) ∧
      (b.getLsbD 62 = false → (w.smode = true ∨ ∃ k q, w.paths.get? k = some q ∧ q.hold = false) → ∃ t, exec .breakpointHit s = .next t ∧
        t.warp? w.key = some { w with p := { w.p with hold := true } })) ∧
    ((w.p.past = some w.p.pc ∨ w.p.hold = true ∨ w.perchReq = true ∨ ∀ b ∈ s.io.perch.bps, b.getLsbD 63 = true → b.toNat % 2 ^ 56 / 2 * 2 ≠ w.p.pc) → exec .breakpointHit s = .next s))

/-- R345, R402 to R405: memory through MADDR and MDATA, in the partition's frames alone; arming rewrites a ring's header; samples. That an
interval outside 8 to 20 sets ERR and leaves SMPCTL is the model's choice (log 44). -/
def Obligations.PerchMemory : Prop :=
  (∀ s : State,
    let p := s.io.perch
    let d := (s.part p.part).keydom
    (bound s = false → (∃ t, exec .mdataRead s = .next t ∧ t = { s with arg := { s.arg with val := 0 } }) ∧ exec .mdataWrite s = .next s) ∧
    (bound s = true → inFrames s p.part p.maddr 8 = false →
      (∃ t, exec .mdataRead s = .next t ∧ t = { s with arg := { s.arg with val := 0 } }) ∧
      ∃ t, exec .mdataWrite s = .next t ∧ OnlyIo s t ∧ t.io.perch.err = true) ∧
    (bound s = true → inFrames s p.part p.maddr 8 = true →
      (p.maddr / 64 ∉ s.memPoison → ∃ t, exec .mdataRead s = .next t ∧
        t = { s with arg := { s.arg with val := BitVec.ofNat 64 (readPhys s d p.maddr 8) } }) ∧
      (p.maddr / 64 ∈ s.memPoison → ∃ t, exec .mdataRead s = .next t ∧ t.arg.val = 0 ∧ t.io.perch.err = true ∧ t.mem = s.mem) ∧
      (s.ext = [] → s.now < s.horizon.getD (p.maddr / 64) 0 → ∃ t o, exec .mdataWrite s = .next t ∧ t.mem = s.mem ∧ t.ext = [o] ∧
        o.accs.map (fun a => (a.addr, a.n, a.data)) = [(p.maddr, 8, s.arg.val.toNat)]) ∧
      (s.ext = [] → s.horizon.getD (p.maddr / 64) 0 ≤ s.now → lineWaits s (p.maddr / 64) = false → sameKey s d (p.maddr / 64) = true → ∃ t, exec .mdataWrite s = .next t ∧
        t.mem = s.mem.writeN p.maddr 8 s.arg.val.toNat ∧ t.ext = []))) ∧
  (∀ s : State, bound s = true →
    let p := s.io.perch
    let v := s.arg.val
    let d := (s.part p.part).keydom
    -- intervals of 2^8 to 2^20 cycles, and a ring in the partition's frames
    ((bits v 20 16 < 8 ∨ 20 < bits v 20 16) → ∃ t, exec .sampleArm s = .next t ∧ OnlyIo s t ∧ t.io.perch.err = true ∧ t.io.perch.smpCtl = p.smpCtl) ∧
    (8 ≤ bits v 20 16 → bits v 20 16 ≤ 20 → v.getLsbD 0 = false → ∃ t, exec .sampleArm s = .next t ∧ OnlyIo s t ∧ t.io.perch.smpCtl = v &&& 0x1F0001#64) ∧
    (8 ≤ bits v 20 16 → bits v 20 16 ≤ 20 → v.getLsbD 0 = true → p.smpCtl.getLsbD 0 = false → s.memOk → p.srBase % 64 = 0 →
      inFrames s p.part p.srBase (2 ^ p.srSize) = true → ∃ t, exec .sampleArm s = .next t ∧ t.io.perch.smpCtl = v &&& 0x1F0001#64 ∧
        readPhys t d p.srBase 8 = 0 ∧ readPhys t d (p.srBase + 8) 8 = 0 ∧ readPhys t d (p.srBase + 16) 8 = 0 ∧
        readPhys t d (p.srBase + 24) 8 = 32) ∧
    (v.getLsbD 0 = false → ∃ t, exec .traceArm s = .next t ∧ OnlyIo s t ∧ t.io.perch.trCtl = v &&& 0x103FF#64) ∧
    (v.getLsbD 0 = true → inFrames s p.part p.trBase (2 ^ p.trSize) = false → ∃ t, exec .traceArm s = .next t ∧ OnlyIo s t ∧
      t.io.perch.err = true ∧ t.io.perch.trCtl = p.trCtl) ∧
    (v.getLsbD 0 = true → p.trCtl.getLsbD 0 = false → s.memOk → p.trBase % 64 = 0 →
      inFrames s p.part p.trBase (2 ^ p.trSize) = true → ∃ t, exec .traceArm s = .next t ∧ t.io.perch.trCtl = v &&& 0x103FF#64 ∧
        readPhys t d p.trBase 8 = 0 ∧ readPhys t d (p.trBase + 8) 8 = 0 ∧ readPhys t d (p.trBase + 16) 8 = 0 ∧
        readPhys t d (p.trBase + 24) 8 = 64)) ∧
  -- one record a slot: with room, the producer count rises by four
  (∀ s : State,
    let p := s.io.perch
    let d := (s.part p.part).keydom
    let put := readPhys s d p.srBase 8
    let got := readPhys s d (p.srBase + 8) 8
    (sampled s s.arg.core = false → exec .stallSample s = .next s) ∧
    -- a ring that has left the partition's frames takes none
    (inFrames s p.part p.srBase (2 ^ p.srSize) = false → exec .stallSample s = .next s) ∧
    (sampled s s.arg.core = true → inFrames s p.part p.srBase (2 ^ p.srSize) = true → s.memOk → p.srBase % 64 = 0 → sameKey s d (p.srBase / 64) = true → got ≤ put →
      put + 4 < 2 ^ 64 → put - got + 4 ≤ (2 ^ p.srSize - 64) / 32 → ∃ t, exec .stallSample s = .next t ∧
        readPhys t d p.srBase 8 = put + 4 ∧ readPhys t d (p.srBase + 8) 8 = got ∧ t.warps = s.warps ∧ t.w = s.w))

namespace Sys2Proof.Stmt
open Sys2Proof.Machine

/-! ## Management (spec/20 R380 to R391, spec/21 R401, R411, R412, R417 to R424) -/

/-- R417: the command has ended: STATUS, DLEN and TAG stand, DONE is set, GO has fallen. -/
def Ended (s t : State) (st : Nat) (data : List Byte) : Prop :=
  let m := t.io.mbox
  m.busy = false ∧ m.done = true ∧ m.status = st ∧ m.data = data ∧ m.dlen = data.length ∧ m.tag = bits s.io.mbox.cmd 31 16 ∧
  m.cmd = s.io.mbox.cmd ∧ m.args = s.io.mbox.args
/-- A command runs: GO is set and the package is not in RECOVERY. -/
def Runs (s : State) : Prop := s.io.mbox.busy = true ∧ s.io.recovery = false
/-- Argument n of the command. -/
def argN (s : State) (n : Nat) : Nat := s.arg.list.getD n 0
/-- The arguments of CHECKPOINT and RESTORE are in range. -/
def CkArgs (s : State) (ps : List Nat) (ts : List CkTarget) : Prop :=
  (argN s 0 = 0xFF ∧ ps = s.parts.keys ∨ argN s 0 ≠ 0xFF ∧ s.parts.has (argN s 0) = true ∧ ps = [argN s 0]) ∧
  1 ≤ argN s 2 ∧ argN s 2 ≤ 64 ∧ ts = readTargets s.io.hostMem (argN s 1) (argN s 2) ∧ ∀ x ∈ ts, targetOk x = true
/-- What CHECKPOINT and RESTORE start. -/
def ckOf (s : State) (restoring : Bool) (ps : List Nat) (ts : List CkTarget) : Ck :=
  { state := 1, restoring := restoring, id := BitVec.ofNat 64 (argN s 3), parts := ps, targets := ts, start := s.now,
    total := (s.io.frames.filter fun e => ps.contains e.2.1).length * (2 ^ 21 + 64) + (ps.map fun p => (s.part p).vdevs.length).sum * 33088 }
/-- A restore shows the digest that its manifest's signature is over, and the bytes of its units. -/
def restoring (s : State) (ps : List Nat) (ts : List CkTarget) (x : CkImage) : Ck :=
  { ckOf s true ps ts with digest := shake512 (x.manifest.take (x.manifest.length - 114)), total := (x.units.map fun u => u.2.2.1).sum }
/-- The start-up sequence has begun: step 1 runs, and nothing is resident or set. -/
def Starts (s t : State) (fw : FwCfg) : Prop :=
  t.warps = [] ∧ t.launches = [] ∧ t.gangs = [] ∧ t.parts = [] ∧ t.tick = 0 ∧ t.io.ready = false ∧ t.io.recovery = false ∧
  t.io.ident.bootst = 1 ∧ t.io.boot = some ⟨s.arg.sel, s.arg.val2⟩ ∧ t.io.fw = fw ∧ t.io.queues = [] ∧ t.io.journal.ring = [] ∧
  t.io.mbox = {} ∧ t.io.perch = {}
/-- The partitions of a configuration are distinct. -/
def Apart (fw : FwCfg) : Prop := fw.parts.Pairwise fun a b => a.id ≠ b.id

end Sys2Proof.Stmt

/-- R417, R424, R398, R391, R401: a command needs GO; in RECOVERY it is denied; attestation, read-out, frames, quotas and sessions. The byte
places and the length of the attestation report, whose fields R424 lists without offsets, and the DENIED of ATTEST before step 5 are the
model's readings (log 35). -/
def Obligations.MailboxCommands : Prop :=
  (∀ (i : Instr) (s : State), (i = .attest ∨ i = .readout ∨ i = .frameset ∨ i = .quotaset ∨ i = .perchbind ∨ i = .perchunbind ∨
      i = .checkpoint ∨ i = .ckstatus ∨ i = .restore) →
    (s.io.mbox.busy = false → exec i s = .next s) ∧
    (s.io.mbox.busy = true → s.io.recovery = true → ∃ t, exec i s = .next t ∧ OnlyIo s t ∧ Ended s t 3 [])) ∧
  (∀ s : State, Runs s →
    -- attestation becomes available with step 5 of R422
    (s.io.ready = false → ∃ t, exec .attest s = .next t ∧ OnlyIo s t ∧ Ended s t 3 []) ∧
    (s.io.ready = true → ∃ t data, exec .attest s = .next t ∧ OnlyIo s t ∧ Ended s t 0 data ∧ data.length = 306 ∧
      data.take 8 = leBytes 8 s.io.ident.devhash.toNat ∧ (data.drop 24).take 64 = leBytes 64 s.io.meas.toNat ∧
      (data.drop 152).take 32 = (List.range 4).flatMap fun i => leBytes 8 (argN s i)) ∧
    -- READOUT with room for the whole ring
    ((argN s 0 % 4096 ≠ 0 ∨ argN s 1 < 2) → ∃ t, exec .readout s = .next t ∧ OnlyIo s t ∧ Ended s t 2 []) ∧
    (argN s 0 % 4096 = 0 → 2 ≤ argN s 1 → s.io.journal.ring.length < argN s 1 → s.io.journal.buffer = [] → ∃ t r data,
      exec .readout s = .next t ∧ OnlyIo s t ∧ Ended s t 0 data ∧ t.io.journal.ring = [] ∧ r.kind = 9 ∧ r.seq = s.io.seq + 1 ∧
      t.io.hostMem = s.io.hostMem.put (argN s 0) ((s.io.journal.ring ++ [r]).flatMap JRec.whole) ∧
      data.take 8 = leBytes 8 (s.io.journal.ring.length + 1)) ∧
    (∃ t, exec .ckstatus s = .next t ∧ OnlyIo s t ∧ Ended s t 0 (leBytes 8 s.io.ck.state ++ leBytes 8 s.io.ck.restoring.toNat ++
      leBytes 8 s.io.ck.done ++ leBytes 8 s.io.ck.total ++ leBytes 64 s.io.ck.digest.toNat))) ∧
  (∀ s : State, Runs s →
    let pid := argN s 0
    let v := argN s 1
    let fs := (List.range (argN s 3)).map fun i => argN s 2 / 2 ^ 21 + i
    let more := (fs.filter fun f => !s.io.frames.has f).length
    let p := s.part pid
    ((s.parts.has pid = false ∨ argN s 2 % 2 ^ 21 ≠ 0 ∨ (4 ≤ v ∧ v ≠ 0xFF) ∨ ∃ f ∈ fs, frameOf s pid f = false) →
      ∃ t, exec .frameset s = .next t ∧ OnlyIo s t ∧ Ended s t 2 []) ∧
    (s.parts.has pid = true → argN s 2 % 2 ^ 21 = 0 → (∀ f ∈ fs, frameOf s pid f = true) →
      (v < 4 → (more = 0 ∨ p.frames.used + more ≤ p.frames.limit) → ∃ t, exec .frameset s = .next t ∧ Ended s t 0 [] ∧ t.mem = s.mem ∧
        t.warps = s.warps ∧ (∀ f ∈ fs, t.io.frames.get? f = some (pid, 4 * pid + v)) ∧
        (∀ f, f ∉ fs → t.io.frames.get? f = s.io.frames.get? f) ∧ (t.part pid).frames.used = p.frames.used + more) ∧
      (v < 4 → more ≠ 0 → p.frames.limit < p.frames.used + more → (p.qexh.getLsbD 3 = true ∨ p.frames.used ≠ p.frames.limit) →
        ∃ t, exec .frameset s = .next t ∧ OnlyIo s t ∧ Ended s t 3 [] ∧ t.io.frames = s.io.frames) ∧
      (v = 0xFF → ∃ t, exec .frameset s = .next t ∧ Ended s t 0 [] ∧ (∀ f ∈ fs, t.io.frames.get? f = none) ∧
        (∀ f, f ∉ fs → t.io.frames.get? f = s.io.frames.get? f)))) ∧
  (∀ s : State, Runs s →
    let pid := argN s 0
    let k := argN s 1
    let n := argN s 2
    let p := s.part pid
    let q : Part := match k with
      | 0 => { p with ecap := n }
      | 1 => { p with lease := { p.lease with limit := n } }
      | 2 => { p with launches := { p.launches with limit := n } }
      | 3 => { p with frames := { p.frames with limit := n } }
      | _ => { p with furlong := { p.furlong with limit := n } }
    ((s.parts.has pid = false ∨ 4 < k) → ∃ t, exec .quotaset s = .next t ∧ OnlyIo s t ∧ Ended s t 2 []) ∧
    (s.parts.has pid = true → k ≤ 4 → quotaNew (s.setPart pid q) pid = [] → ∃ t, exec .quotaset s = .next t ∧ Ended s t 0 [] ∧
      t.mem = s.mem ∧ t.warps = s.warps ∧ t.part pid = { q with qexh := (t.part pid).qexh } ∧ ∀ j, j ≠ pid → t.part j = s.part j)) ∧
  (∀ s : State, Runs s →
    (s.parts.has (argN s 0) = false → ∃ t, exec .perchbind s = .next t ∧ OnlyIo s t ∧ Ended s t 2 [] ∧ t.io.perch = s.io.perch) ∧
    (s.parts.has (argN s 0) = true → bound s = true → ∃ t, exec .perchbind s = .next t ∧ OnlyIo s t ∧ Ended s t 4 [] ∧ t.io.perch = s.io.perch) ∧
    (s.parts.has (argN s 0) = true → bound s = false → ∃ t, exec .perchbind s = .next t ∧ OnlyIo s t ∧ Ended s t 0 [] ∧
      t.io.perch = { part := argN s 0 }) ∧
    (KeysOk s → NoRing s → ∃ t, exec .perchunbind s = .next t ∧ Ended s t 0 [] ∧ t.mem = s.mem ∧ t.io.perch = {} ∧
      ∀ w ∈ s.allWarps, w.id.part = s.io.perch.part → w.paths.wf → ∃ w', t.warp? w.key = some w' ∧ w'.perched = false ∧ w'.perchReq = false ∧
        w'.p.hold = false))

/-- R418 to R421: what starts a checkpoint or a restore and how they end. -/
def Obligations.CheckpointAndRestore : Prop :=
  (∀ (i : Instr) (s : State), (i = .checkpoint ∨ i = .restore) → Runs s →
    (s.io.ck.state = 1 → ∃ t, exec i s = .next t ∧ OnlyIo s t ∧ Ended s t 4 [] ∧ t.io.ck = s.io.ck) ∧
    (s.io.ck.state ≠ 1 → (∀ ps ts, ¬ CkArgs s ps ts) → ∃ t, exec i s = .next t ∧ OnlyIo s t ∧ Ended s t 2 [] ∧ t.io.ck = s.io.ck)) ∧
  (∀ (s : State) (ps : List Nat) (ts : List CkTarget), Runs s → s.io.ck.state ≠ 1 → CkArgs s ps ts →
    (∃ t, exec .checkpoint s = .next t ∧ Ended s t 0 [] ∧ t.io.ck = ckOf s false ps ts ∧ t.mem = s.mem ∧
      ∀ p ∈ ps, (t.part p).ending = true) ∧
    -- RESTORE starts where the manifest passes the checks of R421, and fails where it does not or there is none
    (∀ x, s.io.ckImages.get? (BitVec.ofNat 64 (argN s 3)).toNat = some x →
      let s1 := { s with io := { s.io with ck := ckOf s true ps ts } }
      (restoreChecks s1 x = true → ∃ t, exec .restore s = .next t ∧ Ended s t 0 [] ∧ t.io.ck = restoring s ps ts x ∧ t.mem = s.mem ∧
        ∀ p ∈ ps, (t.part p).ending = true) ∧
      (restoreChecks s1 x = false → ∃ t, exec .restore s = .next t ∧ OnlyIo s t ∧ Ended s t 0 [] ∧ t.io.ck.state = 3 ∧
        t.io.ck.restoring = true)) ∧
    (s.io.ckImages.get? (BitVec.ofNat 64 (argN s 3)).toNat = none → ∃ t, exec .restore s = .next t ∧ OnlyIo s t ∧ Ended s t 0 [] ∧
      t.io.ck.state = 3 ∧ t.io.ck.restoring = true)) ∧
  (∀ s : State, ckQuiet s = false ∨ s.io.ck.restoring = true → exec .checkpointEnd s = .next s) ∧
  (∀ s : State, ckQuiet s = true → s.io.ck.restoring = false → s.io.ck.targets ≠ [] →
    let c := s.io.ck
    let l := layout c.targets.length c.id 0 (List.replicate c.targets.length 0) (ckUnits s c.parts)
    (0 ∈ s.arg.list → ∃ t, exec .checkpointEnd s = .next t ∧ t.io.ck.state = 3 ∧ t.io.ckImages = s.io.ckImages ∧ t.mem = s.mem ∧ t.parts = s.parts) ∧
    ((∀ k, k < c.targets.length → targetFails s l k (if k = 0 then (manifest s l).1.length else 0) = false) → ∃ t x,
      exec .checkpointEnd s = .next t ∧ t.io.ck.state = 2 ∧ t.mem = s.mem ∧ t.parts = s.parts ∧ t.io.ckImages.get? c.id.toNat = some x ∧
      x.parts = c.parts ∧ x.start = c.start ∧ x.frames = (s.io.frames.filter fun e => c.parts.contains e.2.1) ∧
      (∀ k v, s.launches.get? k = some v → v.part ∈ c.parts → x.launches.get? k = some v))) ∧
  (∀ s : State, (s.io.ck.state ≠ 1 ∨ s.io.ck.restoring = false) → exec .restoreEnd s = .next s) ∧
  (∀ (s : State) (x : CkImage), s.io.ck.restoring = true → ckQuiet s = true → s.io.ckImages.get? s.io.ck.id.toNat = some x →
    (s.arg.list ≠ [] → ∃ t, exec .restoreEnd s = .next t ∧ t.io.ck.state = 3 ∧ ∀ q v, s.io.queues.get? q = some v → v.part ∈ s.io.ck.parts →
      t.io.queues.get? q = some { v with enable := false }) ∧
    (s.arg.list = [] → (∀ u ∈ x.units, unitOk s u = true) → x.frames.length ≤ x.units.length → s.memOk → Memory.wf x.mem →
      ∃ t, exec .restoreEnd s = .next t ∧ t.io.ck.state = 2 ∧ t.io.ck.done = s.io.ck.done + (x.units.map fun u => u.2.2.1).sum ∧
        ∀ f ∈ x.frames, f.2.1 ∈ s.io.ck.parts → ∀ a, a / 2 ^ 21 = f.1 → t.mem.get a = x.mem.get a))

/-- R322, R380, R384, R386, R422, R423: start-up, warm reset, re-keying, partitions. That memory keeps its bytes, that one step of the
start-up runs in a tick, and that an erased domain leaves its partition (act 2) are the model's choices (log 36). -/
def Obligations.ResetsAndDomains : Prop :=
  (∀ s : State, ∃ t, exec .powerOnReset s = .next t ∧ t.mem = [] ∧ Starts s t s.arg.fw) ∧
  (∀ s : State, (s.io.mbox.busy = false → exec .warmreset s = .next s) ∧
    (s.io.mbox.busy = true → ∃ t, exec .warmreset s = .next t ∧ t.mem = s.mem ∧ Starts s t s.io.fw ∧ t.io.journal.buffer = [] ∧
      ∀ d, d < 64 → domVer t d = domVer s d + 1)) ∧
  -- the steps, one a tick of chain time
  (∀ (s : State) (b : Boot), s.io.boot = some b →
    let n := s.io.ident.bootst
    let fw := s.io.fw
    let goes := fun (t : State) => exec .chainTimeTick s = .next t ∧ t.mem = s.mem ∧ t.tick = s.tick + 1 ∧ t.io.boot = some b ∧
      t.io.ready = s.io.ready ∧ t.io.ident.bootst = n + 1
    (n = 1 → ∃ t, goes t ∧ t.io.ident.devhash = deviceHash 1 fw.stepping ∧ t.io.ident.level = 1 ∧
      t.io.ident.stepping = fw.stepping ∧ t.io.ident.serial = fw.serial) ∧
    (n = 2 → b.fail ≠ 2 → ∃ t, goes t) ∧
    (n = 3 → ∃ t, goes t ∧ t.io.meas = measure fw ∧ ∀ i, i < 36 → (port t i).state = 1) ∧
    (n = 4 → b.fail ≠ 4 → ∃ t, goes t ∧ t.io.ident.furid = fw.furid ∧
      ∀ i, i < 36 → (port t i).state = if b.ports.testBit i then 0 else 2) ∧
    (n = 5 → b.fail ≠ 5 → Apart fw → ∃ t, exec .chainTimeTick s = .next t ∧ t.mem = s.mem ∧ t.io.boot = none ∧ t.io.ready = true ∧
      t.io.ident.bootst = 6 ∧ ∀ c ∈ fw.parts, t.part c.id = c.p) ∧
    -- a step that fails leaves RECOVERY
    (n = b.fail → (n = 2 ∨ n = 4 ∨ n = 5) → ∃ t, exec .chainTimeTick s = .next t ∧ t.mem = s.mem ∧ t.io.boot = none ∧
      t.io.ready = s.io.ready ∧ t.io.recovery = true ∧ t.io.ident.bootst = 0x80 + n ∧ t.io.queues = s.io.queues)) ∧
  (∀ s : State,
    let p := s.part s.arg.part
    let d := s.arg.sel
    let act := s.arg.val2
    let other := ∃ e ∈ s.parts, e.1 ≠ s.arg.part ∧ d ∈ e.2.domains
    let ok := released s s.arg.part = true ∧ 1 ≤ d ∧ d < 64 ∧ ¬ other ∧ act ≤ 2 ∧ (act = 0 ∨ d ∈ p.domains)
    (¬ ok → exec .keyDomainRekey s = .next s) ∧
    (ok → ∃ t, exec .keyDomainRekey s = .next t ∧ t.mem = s.mem ∧ domVer t d = domVer s d + (if act = 0 then 0 else 1) ∧
      (∀ e, e ≠ d → domVer t e = domVer s e) ∧ (act = 0 → d ∈ (t.part s.arg.part).domains) ∧
      (act = 1 → (t.part s.arg.part).domains = p.domains) ∧ (act = 2 → (t.part s.arg.part).domains = p.domains.erase d))) ∧
  (∀ s : State,
    (s.io.ready = false → exec .partitionReconfigure s = .next s) ∧
    (∀ c ∈ s.arg.fw.parts, ∀ die ∈ c.p.dies, ∀ e ∈ s.cores, e.1 / 64 = die → e.2.block.isSome = true →
      exec .partitionReconfigure s = .next s) ∧
    (s.io.ready = true → (∀ e ∈ s.cores, e.2.block = none) → Apart s.arg.fw → ∃ t, exec .partitionReconfigure s = .next t ∧ t.mem = s.mem ∧
      t.warps = s.warps ∧ (∀ c ∈ s.arg.fw.parts, t.part c.id = c.p) ∧ t.io.fw = s.arg.fw))

/-- R411, R412: a capture begins at a slice boundary with the virtual device's frames; a replay restores them. -/
def Obligations.CaptureAndReplay : Prop :=
  (∀ s : State,
    let v := s.arg.vdev
    let ok := s.vdevs.has v = true ∧ atSlice s v = true ∧ replaying s = none
    (¬ ok → exec .replayCapture s = .next s) ∧
    (ok → ∃ t c, exec .replayCapture s = .next t ∧ OnlyIo s t ∧ t.io.capture = some c ∧ c.vdev = v ∧ c.time = s.now ∧ c.recs = [] ∧
      c.frames = framesOf s v ∧ (s.memOk → ∀ a, a / 2 ^ 21 ∈ c.frames → Memory.get c.mem a = s.mem.get a))) ∧
  (∀ s : State,
    let v := s.arg.vdev
    (s.io.capture = none → exec .replay s = .next s) ∧
    (∀ c, s.io.capture = some c → c.recs = [] → replaying s = none → s.vdevs.has v = true → atSlice s v = true →
      c.frames = framesOf s v → s.io.frames.wf → (∀ l ∈ s.launches.vals, l.vdev ≠ v) → s.memOk → Memory.wf c.mem →
      (∀ e ∈ c.mem, e.1 / 2 ^ 21 ∈ c.frames) → ∃ t, exec .replay s = .next t ∧
        (∀ a, a / 2 ^ 21 ∈ c.frames → t.mem.get a = Memory.get c.mem a) ∧ (∀ a, a / 2 ^ 21 ∉ c.frames → t.mem.get a = s.mem.get a) ∧
        ∃ r, t.io.replay = some r ∧ r.vdev = v ∧ r.todo = [] ∧ r.results = []))

namespace Sys2Proof.Stmt
open Sys2Proof.Machine

/-! ## The step, and encodings (spec/02, spec/08) -/

/-- Slot k of a core is to act and its holder w may issue: nothing of R42, R50, R408 or R409 stands before its instruction. -/
def MayAct (s : State) (core : Nat) (w : Warp) : Prop :=
  KeysOk s ∧ (s.core core).slot < 4 ∧ holderOf s core (s.core core).slot = some w ∧ mayIssue w = true ∧ paused s core (s.core core).slot = false ∧
  s.io.perch.part ≠ w.id.part ∧ w.p.hold = false ∧ w.tenure ≤ Config.rescueTenure ∧ w.tenure ≤ Config.tenureLimit ∧ w.slipDue = false ∧
  w.stopReq = false ∧ w.paths = [] ∧ w.inv = none ∧ w.entry = none ∧ w.owed = none ∧ w.p.arrived = none
/-- The word at the program counter: at a body position, inside the body, no dictionary code, of an assigned opcode that the mode may
run; a control transfer ends its body (R173, R174, R190). -/
def StandsAt (s : State) (x : Word) (i : Instr) : Prop :=
  s.w.p.atHdr = false ∧ s.w.p.chk = false ∧ fetch4 s s.w s.w.p.pc = .ok x ∧ s.w.p.pc + 8 ≤ Hdr.endAddr s.w.p.hdr ∧
  isDictCode (x.extractLsb' 48 16) = false ∧ decode x = .ok i ∧ (isPriv x = true → s.w.smode = true) ∧
  (isTransfer i = true → s.w.p.pc + 8 = Hdr.endAddr s.w.p.hdr)
/-- The state of the turn: in slot 0 the lease requests of the cycles before stand in the queue (R165); the slot has had its turn,
and the holder acts, no longer the PARKED warp it may have been stopped as (R339). -/
def inTurn (s : State) (core : Nat) (w : Warp) : State :=
  let s0 := if (s.core core).slot = 0 then openCycle s (core / 8) else s
  let s1 := (s0.modCore core fun c => { c with slot := c.slot + 1, paused := false }).focus w.key
  { s1 with w := { s1.w with wasParked := false } }

end Sys2Proof.Stmt

/-- R20, R34, R173: in its turn a holder executes the instruction that the word at its program counter decodes to; what its core
counts afterwards is `afterTry`. A core acts when the order of log 5 or the agenda gives it the turn. -/
def Obligations.StepRunsDecoded : Prop :=
  (∀ (s : State) (core : Nat) (l : List Choice), s.due = [] → s.agenda = .turn core :: l → step s = coreAct { s with agenda := l } core) ∧
  (∀ (s : State) (core : Nat), s.due = [] → s.agenda = [] → dueRow s = none → nextCore s = some core → step s = coreAct s core) ∧
  (∀ (s : State) (core : Nat) (w : Warp) (x : Word) (i : Instr) (t : State), MayAct s core w →
    let s1 := inTurn s core w
    StandsAt s1 x i → exec i (prepare s1 8) = .next t → coreAct s core = .next (afterTry s1 t true) ∧
      (prepare s1 8).ilen = 8 ∧ (prepare s1 8).w.p.pc = w.p.pc) ∧
  -- a happening that has been posted comes first, with its operands
  (∀ (s : State) (h : Happening) (l : List Happening), s.due = h :: l → step s = exec h.row { s with due := l, arg := h.arg }) ∧
  -- where nothing else is to be done, chain time moves
  (∀ s : State, s.due = [] → s.agenda = [] → dueRow s = none → nextCore s = none → (∀ h ∈ openRows s, progress s h = false) →
    step s = exec .chainTimeTick (settle s))

/-- Words written out from the encodings of spec/08 and of the entries decode to the instructions they stand for. -/
def Obligations.DecodeWords : Prop :=
  decode 0x0000203060000000#64 = .ok (.vadd ⟨0, false⟩ 2 3 6 0 .wrap) ∧
  decode 0x4000814038020FC0#64 = .ok (.ld ⟨0, false⟩ 8 ⟨20, some 3, 0xFC0, false, .none, 2⟩ .w32) ∧
  decode 0x4200100FF8112000#64 = .ok (.redAdd ⟨1, false⟩ 1 ⟨0, none, 0, true, .none, 1⟩ false) ∧
  decode 0x4700000000000000#64 = .ok (.bsync ⟨0, false⟩) ∧
  decode 0x5000008000000000#64 = .ok (.tdef ⟨0, false⟩ (.name 1) .w32) ∧
  decode 0x504000401C0001F0#64 = .ok (.tread ⟨0, false⟩ 31 (.reg 7) 0) ∧
  decode 0x86014160A0C30A00#64 = .ok (.inv ⟨0, false⟩ ⟨20, 22, 10, false, 12, 3, 40, false, false⟩) ∧
  decode 0x8800500000000102#64 = .ok (.rdpr ⟨0, false⟩ 5 0x102) ∧
  decode 0x8041E00000000000#64 = .ok (.passf ⟨0, false⟩ 30) ∧
  decodeParcels [0xFC05#16] = some (.dictionaryCode 0xF 5, 1)

/-- Every well-formed instruction that has an encoding, with every operand at every value the encoding admits, is what its encoding
decodes to; and a word that decodes is the encoding of what it decodes to. -/
def Obligations.DecodeEncode : Prop :=
  (∀ i : Instr, wellFormed i = true → encodeParcels i ≠ [] → decodeParcels (encodeParcels i) = some (i, (encodeParcels i).length)) ∧
  ∀ (w : Word) (i : Instr), decode w = .ok i → wellFormed i = true ∧ encode i = some w

/-- Every step keeps memory in its canonical form (log 8), whatever the state. -/
def Obligations.MemoryStaysCanonical : Prop := ∀ s t : State, s.memOk → step s = .next t → t.memOk

/-- R128, R354, R402, R417, R422: what reset leaves. That the rails stand at 104 steps, the floor of R369, and that memory lists
nothing is the model's choice (logs 4 and 8); the other values are the spec's. -/
def Obligations.ResetState : Prop :=
  State.reset.memOk ∧ State.reset.tick = 0 ∧ State.reset.allWarps = [] ∧ State.reset.launches = [] ∧ State.reset.gangs = [] ∧
  (∀ q, let x := queue State.reset q
    x.qbase = 0 ∧ x.size = 0 ∧ x.enable = false ∧ x.halted = false ∧ x.prio = 3 ∧ x.qtail = 0 ∧ x.qhead = 0 ∧ x.qdone = 0 ∧
    x.status = 0 ∧ x.reason = 0) ∧
  (∀ k, k < 3 → rail State.reset k = { steps := 104, target := 104 }) ∧
  State.reset.io.mbox.busy = false ∧ State.reset.io.perch.part = 255 ∧ State.reset.io.perch.bps = List.replicate 8 0 ∧
  State.reset.io.ready = false

/-- No step stops: everything the spec calls a fault or a trap is a next state. -/
def Obligations.NoStepStops : Prop := ∀ s : State, ∃ t, step s = .next t
end

