-- ==== Sys2Proof/Laws/Dispatch.lean ====
section
/-! SUPPORT. The arms of exec, one equation each: the meaning an instruction or a happening has, without unfolding the whole match. -/
namespace Sys2Proof.Machine

theorem exec_vadd (c d a b ms m) (s : State) : exec (.vadd c d a b ms m) s = execVadd c d a b ms m s := rfl
theorem exec_vsub (c d a b ms m) (s : State) : exec (.vsub c d a b ms m) s = execVsub c d a b ms m s := rfl
theorem exec_vmul (c d a b ms) (s : State) : exec (.vmul c d a b ms) s = execVmul c d a b ms s := rfl
theorem exec_vmulh (c d a b ms u) (s : State) : exec (.vmulh c d a b ms u) s = execVmulh c d a b ms u s := rfl
theorem exec_vmad (c d a b cc ms) (s : State) : exec (.vmad c d a b cc ms) s = execVmad c d a b cc ms s := rfl
theorem exec_vand (c d a b ms) (s : State) : exec (.vand c d a b ms) s = execVand c d a b ms s := rfl
theorem exec_vor (c d a b ms) (s : State) : exec (.vor c d a b ms) s = execVor c d a b ms s := rfl
theorem exec_vxor (c d a b ms) (s : State) : exec (.vxor c d a b ms) s = execVxor c d a b ms s := rfl
theorem exec_vshl (c d a b ms) (s : State) : exec (.vshl c d a b ms) s = execVshl c d a b ms s := rfl
theorem exec_vshr (c d a b ms) (s : State) : exec (.vshr c d a b ms) s = execVshr c d a b ms s := rfl
theorem exec_vsra (c d a b ms) (s : State) : exec (.vsra c d a b ms) s = execVsra c d a b ms s := rfl
theorem exec_vmin (c d a b ms) (s : State) : exec (.vmin c d a b ms) s = execVmin c d a b ms s := rfl
theorem exec_vmax (c d a b ms) (s : State) : exec (.vmax c d a b ms) s = execVmax c d a b ms s := rfl
theorem exec_vminn (c d a b ms) (s : State) : exec (.vminn c d a b ms) s = execVminn c d a b ms s := rfl
theorem exec_vmaxn (c d a b ms) (s : State) : exec (.vmaxn c d a b ms) s = execVmaxn c d a b ms s := rfl
theorem exec_vabs (c d a ms m) (s : State) : exec (.vabs c d a ms m) s = execVabs c d a ms m s := rfl
theorem exec_vneg (c d a ms m) (s : State) : exec (.vneg c d a ms m) s = execVneg c d a ms m s := rfl
theorem exec_vclz (c d a ms) (s : State) : exec (.vclz c d a ms) s = execVclz c d a ms s := rfl
theorem exec_vpopc (c d a ms) (s : State) : exec (.vpopc c d a ms) s = execVpopc c d a ms s := rfl
theorem exec_vcmp (c d a b ms p) (s : State) : exec (.vcmp c d a b ms p) s = execVcmp c d a b ms p s := rfl
theorem exec_vsel (c d a b cc ms) (s : State) : exec (.vsel c d a b cc ms) s = execVsel c d a b cc ms s := rfl
theorem exec_vmov (c f ms) (s : State) : exec (.vmov c f ms) s = execVmov c f ms s := rfl
theorem exec_vlane (c d ms) (s : State) : exec (.vlane c d ms) s = execVlane c d ms s := rfl
theorem exec_vaddi (c d a ms imm) (s : State) : exec (.vaddi c d a ms imm) s = execVaddi c d a ms imm s := rfl
theorem exec_vandi (c d a ms imm) (s : State) : exec (.vandi c d a ms imm) s = execVandi c d a ms imm s := rfl
theorem exec_vori (c d a ms imm) (s : State) : exec (.vori c d a ms imm) s = execVori c d a ms imm s := rfl
theorem exec_vxori (c d a ms imm) (s : State) : exec (.vxori c d a ms imm) s = execVxori c d a ms imm s := rfl
theorem exec_vshli (c d a ms n) (s : State) : exec (.vshli c d a ms n) s = execVshli c d a ms n s := rfl
theorem exec_vshri (c d a ms n) (s : State) : exec (.vshri c d a ms n) s = execVshri c d a ms n s := rfl
theorem exec_vsrai (c d a ms n) (s : State) : exec (.vsrai c d a ms n) s = execVsrai c d a ms n s := rfl
theorem exec_vmovi (c d ms imm) (s : State) : exec (.vmovi c d ms imm) s = execVmovi c d ms imm s := rfl
theorem exec_vcmpi (c d a ms p imm) (s : State) : exec (.vcmpi c d a ms p imm) s = execVcmpi c d a ms p imm s := rfl
theorem exec_fadd (c d a b ms r) (s : State) : exec (.fadd c d a b ms r) s = execFadd c d a b ms r s := rfl
theorem exec_fsub (c d a b ms r) (s : State) : exec (.fsub c d a b ms r) s = execFsub c d a b ms r s := rfl
theorem exec_fmul (c d a b ms r) (s : State) : exec (.fmul c d a b ms r) s = execFmul c d a b ms r s := rfl
theorem exec_ffma (c d a b cc ms r) (s : State) : exec (.ffma c d a b cc ms r) s = execFfma c d a b cc ms r s := rfl
theorem exec_fmin (c d a b ms) (s : State) : exec (.fmin c d a b ms) s = execFmin c d a b ms s := rfl
theorem exec_fmax (c d a b ms) (s : State) : exec (.fmax c d a b ms) s = execFmax c d a b ms s := rfl
theorem exec_fabs (c d a ms) (s : State) : exec (.fabs c d a ms) s = execFabs c d a ms s := rfl
theorem exec_fneg (c d a ms) (s : State) : exec (.fneg c d a ms) s = execFneg c d a ms s := rfl
theorem exec_fcmp (c d a b ms p) (s : State) : exec (.fcmp c d a b ms p) s = execFcmp c d a b ms p s := rfl
theorem exec_fclass (c d a ms) (s : State) : exec (.fclass c d a ms) s = execFclass c d a ms s := rfl
theorem exec_fdiv (c d a b ms r) (s : State) : exec (.fdiv c d a b ms r) s = execFdiv c d a b ms r s := rfl
theorem exec_fsqrt (c d a ms r) (s : State) : exec (.fsqrt c d a ms r) s = execFsqrt c d a ms r s := rfl
theorem exec_frcp (c d a ms) (s : State) : exec (.frcp c d a ms) s = execFrcp c d a ms s := rfl
theorem exec_frsq (c d a ms) (s : State) : exec (.frsq c d a ms) s = execFrsq c d a ms s := rfl
theorem exec_fexp2 (c d a ms) (s : State) : exec (.fexp2 c d a ms) s = execFexp2 c d a ms s := rfl
theorem exec_flog2 (c d a ms) (s : State) : exec (.flog2 c d a ms) s = execFlog2 c d a ms s := rfl
theorem exec_fsin (c d a ms) (s : State) : exec (.fsin c d a ms) s = execFsin c d a ms s := rfl
theorem exec_fcos (c d a ms) (s : State) : exec (.fcos c d a ms) s = execFcos c d a ms s := rfl
theorem exec_fscale (c d a b ms r) (s : State) : exec (.fscale c d a b ms r) s = execFscale c d a b ms r s := rfl
theorem exec_ftanh (c d a ms) (s : State) : exec (.ftanh c d a ms) s = execFtanh c d a ms s := rfl
theorem exec_hfma2 (c d a b cc ms r bf) (s : State) : exec (.hfma2 c d a b cc ms r bf) s = execHfma2 c d a b cc ms r bf s := rfl
theorem exec_hadd2 (c d a b ms r bf) (s : State) : exec (.hadd2 c d a b ms r bf) s = execHadd2 c d a b ms r bf s := rfl
theorem exec_hmul2 (c d a b ms r bf) (s : State) : exec (.hmul2 c d a b ms r bf) s = execHmul2 c d a b ms r bf s := rfl
theorem exec_scacc (c d a b cc ms) (s : State) : exec (.scacc c d a b cc ms) s = execScacc c d a b cc ms s := rfl
theorem exec_cvt (c d a ms dst src r) (s : State) : exec (.cvt c d a ms dst src r) s = execCvt c d a ms dst src r s := rfl
theorem exec_pack (c d a b ms t hi r) (s : State) : exec (.pack c d a b ms t hi r) s = execPack c d a b ms t hi r s := rfl
theorem exec_unpack (c d a ms t n) (s : State) : exec (.unpack c d a ms t n) s = execUnpack c d a ms t n s := rfl
theorem exec_shfl (c d a b ms g m) (s : State) : exec (.shfl c d a b ms g m) s = execShfl c d a b ms g m s := rfl
theorem exec_shflup (c d a n ms g m) (s : State) : exec (.shflup c d a n ms g m) s = execShflup c d a n ms g m s := rfl
theorem exec_shfldn (c d a n ms g m) (s : State) : exec (.shfldn c d a n ms g m) s = execShfldn c d a n ms g m s := rfl
theorem exec_shflx (c d a n ms g m) (s : State) : exec (.shflx c d a n ms g m) s = execShflx c d a n ms g m s := rfl
theorem exec_bcast (c d a l ms g m) (s : State) : exec (.bcast c d a l ms g m) s = execBcast c d a l ms g m s := rfl
theorem exec_vredadd (c d a ms g) (s : State) : exec (.vredadd c d a ms g) s = execVredadd c d a ms g s := rfl
theorem exec_vredmin (c d a ms g u) (s : State) : exec (.vredmin c d a ms g u) s = execVredmin c d a ms g u s := rfl
theorem exec_vredmax (c d a ms g u) (s : State) : exec (.vredmax c d a ms g u) s = execVredmax c d a ms g u s := rfl
theorem exec_fredadd (c d a ms g r) (s : State) : exec (.fredadd c d a ms g r) s = execFredadd c d a ms g r s := rfl
theorem exec_fredmin (c d a ms g) (s : State) : exec (.fredmin c d a ms g) s = execFredmin c d a ms g s := rfl
theorem exec_fredmax (c d a ms g) (s : State) : exec (.fredmax c d a ms g) s = execFredmax c d a ms g s := rfl
theorem exec_vscan (c d a ms g ex) (s : State) : exec (.vscan c d a ms g ex) s = execVscan c d a ms g ex s := rfl
theorem exec_fscan (c d a ms g ex r) (s : State) : exec (.fscan c d a ms g ex r) s = execFscan c d a ms g ex r s := rfl
theorem exec_vfroms (c d a ms) (s : State) : exec (.vfroms c d a ms) s = execVfroms c d a ms s := rfl
theorem exec_vtos (c d a l ms sx) (s : State) : exec (.vtos c d a l ms sx) s = execVtos c d a l ms sx s := rfl
theorem exec_vins (c d a l ms) (s : State) : exec (.vins c d a l ms) s = execVins c d a l ms s := rfl
theorem exec_sbind (c d a b cc wr esize) (s : State) : exec (.sbind c d a b cc wr esize) s = execSbind c d a b cc wr esize s := rfl
theorem exec_sunbind (c d) (s : State) : exec (.sunbind c d) s = execSunbind c d s := rfl
theorem exec_sseek (c d a rel) (s : State) : exec (.sseek c d a rel) s = execSseek c d a rel s := rfl
theorem exec_spos (c d a f) (s : State) : exec (.spos c d a f) s = execSpos c d a f s := rfl
theorem exec_ld (c d m w) (s : State) : exec (.ld c d m w) s = execLd c d m w s := rfl
theorem exec_st (c d m w) (s : State) : exec (.st c d m w) s = execSt c d m w s := rfl
theorem exec_ldsc (c d m w) (s : State) : exec (.ldsc c d m w) s = execLdsc c d m w s := rfl
theorem exec_stsc (c d m w) (s : State) : exec (.stsc c d m w) s = execStsc c d m w s := rfl
theorem exec_pref (c m w) (s : State) : exec (.pref c m w) s = execPref c m w s := rfl
theorem exec_atomAdd (c d m w64) (s : State) : exec (.atomAdd c d m w64) s = execAtomAdd c d m w64 s := rfl
theorem exec_atomSub (c d m w64) (s : State) : exec (.atomSub c d m w64) s = execAtomSub c d m w64 s := rfl
theorem exec_atomAnd (c d m w64) (s : State) : exec (.atomAnd c d m w64) s = execAtomAnd c d m w64 s := rfl
theorem exec_atomOr (c d m w64) (s : State) : exec (.atomOr c d m w64) s = execAtomOr c d m w64 s := rfl
theorem exec_atomXor (c d m w64) (s : State) : exec (.atomXor c d m w64) s = execAtomXor c d m w64 s := rfl
theorem exec_atomMin (c d m w64) (s : State) : exec (.atomMin c d m w64) s = execAtomMin c d m w64 s := rfl
theorem exec_atomMax (c d m w64) (s : State) : exec (.atomMax c d m w64) s = execAtomMax c d m w64 s := rfl
theorem exec_atomMinn (c d m w64) (s : State) : exec (.atomMinn c d m w64) s = execAtomMinn c d m w64 s := rfl
theorem exec_atomMaxn (c d m w64) (s : State) : exec (.atomMaxn c d m w64) s = execAtomMaxn c d m w64 s := rfl
theorem exec_atomXchg (c d m w64) (s : State) : exec (.atomXchg c d m w64) s = execAtomXchg c d m w64 s := rfl
theorem exec_atomCas (c d m w64) (s : State) : exec (.atomCas c d m w64) s = execAtomCas c d m w64 s := rfl
theorem exec_redAdd (c d m w64) (s : State) : exec (.redAdd c d m w64) s = execRedAdd c d m w64 s := rfl
theorem exec_redSub (c d m w64) (s : State) : exec (.redSub c d m w64) s = execRedSub c d m w64 s := rfl
theorem exec_redAnd (c d m w64) (s : State) : exec (.redAnd c d m w64) s = execRedAnd c d m w64 s := rfl
theorem exec_redOr (c d m w64) (s : State) : exec (.redOr c d m w64) s = execRedOr c d m w64 s := rfl
theorem exec_redXor (c d m w64) (s : State) : exec (.redXor c d m w64) s = execRedXor c d m w64 s := rfl
theorem exec_redMin (c d m w64) (s : State) : exec (.redMin c d m w64) s = execRedMin c d m w64 s := rfl
theorem exec_redMax (c d m w64) (s : State) : exec (.redMax c d m w64) s = execRedMax c d m w64 s := rfl
theorem exec_redMinn (c d m w64) (s : State) : exec (.redMinn c d m w64) s = execRedMinn c d m w64 s := rfl
theorem exec_redMaxn (c d m w64) (s : State) : exec (.redMaxn c d m w64) s = execRedMaxn c d m w64 s := rfl
theorem exec_fatomAdd (c d m) (s : State) : exec (.fatomAdd c d m) s = execFatomAdd c d m s := rfl
theorem exec_fatomMin (c d m) (s : State) : exec (.fatomMin c d m) s = execFatomMin c d m s := rfl
theorem exec_fatomMax (c d m) (s : State) : exec (.fatomMax c d m) s = execFatomMax c d m s := rfl
theorem exec_fredAdd (c d m) (s : State) : exec (.fredAdd c d m) s = execFredAdd c d m s := rfl
theorem exec_fredMin (c d m) (s : State) : exec (.fredMin c d m) s = execFredMin c d m s := rfl
theorem exec_fredMax (c d m) (s : State) : exec (.fredMax c d m) s = execFredMax c d m s := rfl
theorem exec_ldres (c d m w64) (s : State) : exec (.ldres c d m w64) s = execLdres c d m w64 s := rfl
theorem exec_stcon (c d m w64) (s : State) : exec (.stcon c d m w64) s = execStcon c d m w64 s := rfl
theorem exec_fence (c sc) (s : State) : exec (.fence c sc) s = execFence c sc s := rfl
theorem exec_barinit (c d base off) (s : State) : exec (.barinit c d base off) s = execBarinit c d base off s := rfl
theorem exec_bararr (c base off) (s : State) : exec (.bararr c base off) s = execBararr c base off s := rfl
theorem exec_barexp (c d base off) (s : State) : exec (.barexp c d base off) s = execBarexp c d base off s := rfl
theorem exec_barwait (c d base off) (s : State) : exec (.barwait c d base off) s = execBarwait c d base off s := rfl
theorem exec_bartest (c d base off clr) (s : State) : exec (.bartest c d base off clr) s = execBartest c d base off clr s := rfl
theorem exec_bsync (c) (s : State) : exec (.bsync c) s = execBsync c s := rfl
theorem exec_gsync (c) (s : State) : exec (.gsync c) s = execGsync c s := rfl
theorem exec_lsync (c) (s : State) : exec (.lsync c) s = execLsync c s := rfl
theorem exec_publish (c d base off) (s : State) : exec (.publish c d base off) s = execPublish c d base off s := rfl
theorem exec_tdef (c td k) (s : State) : exec (.tdef c td k) s = execTdef c td k s := rfl
theorem exec_tnew (c h k) (s : State) : exec (.tnew c h k) s = execTnew c h k s := rfl
theorem exec_twrite (c td v row) (s : State) : exec (.twrite c td v row) s = execTwrite c td v row s := rfl
theorem exec_tseal (c td) (s : State) : exec (.tseal c td) s = execTseal c td s := rfl
theorem exec_tread (c v ta row) (s : State) : exec (.tread c v ta row) s = execTread c v ta row s := rfl
theorem exec_tkill (c ta) (s : State) : exec (.tkill c ta) s = execTkill c ta s := rfl
theorem exec_tstat (c h ta) (s : State) : exec (.tstat c h ta) s = execTstat c h ta s := rfl
theorem exec_tload (c td h sp f) (s : State) : exec (.tload c td h sp f) s = execTload c td h sp f s := rfl
theorem exec_tstore (c ta h sp plane) (s : State) : exec (.tstore c ta h sp plane) s = execTstore c ta h sp plane s := rfl
theorem exec_lease (c h k sh) (s : State) : exec (.lease c h k sh) s = execLease c h k sh s := rfl
theorem exec_leaset (c h k sh) (s : State) : exec (.leaset c h k sh) s = execLeaset c h k sh s := rfl
theorem exec_vacate (c h) (s : State) : exec (.vacate c h) s = execVacate c h s := rfl
theorem exec_lstat (c d h) (s : State) : exec (.lstat c d h) s = execLstat c d h s := rfl
theorem exec_mxloadb (c h ta kb nb f) (s : State) : exec (.mxloadb c h ta kb nb f) s = execMxloadb c h ta kb nb f s := rfl
theorem exec_mxrun (c h ta cnt r f) (s : State) : exec (.mxrun c h ta cnt r f) s = execMxrun c h ta cnt r f s := rfl
theorem exec_mxdrain (c td h nb r z bar) (s : State) : exec (.mxdrain c td h nb r z bar) s = execMxdrain c td h nb r z bar s := rfl
theorem exec_mxzero (c h r) (s : State) : exec (.mxzero c h r) s = execMxzero c h r s := rfl
theorem exec_mxconv (c h r f sp) (s : State) : exec (.mxconv c h r f sp) s = execMxconv c h r f sp s := rfl
theorem exec_cvshape (c h) (s : State) : exec (.cvshape c h) s = execCvshape c h s := rfl
theorem exec_dmcopy (c h k) (s : State) : exec (.dmcopy c h k) s = execDmcopy c h k s := rfl
theorem exec_dmgather (c h v n k) (s : State) : exec (.dmgather c h v n k) s = execDmgather c h v n k s := rfl
theorem exec_dmscatter (c h v n k) (s : State) : exec (.dmscatter c h v n k) s = execDmscatter c h v n k s := rfl
theorem exec_dmfill (c h spd bar) (s : State) : exec (.dmfill c h spd bar) s = execDmfill c h spd bar s := rfl
theorem exec_clreduce (c h tag op ty bar) (s : State) : exec (.clreduce c h tag op ty bar) s = execClreduce c h tag op ty bar s := rfl
theorem exec_clgather (c h tag bar) (s : State) : exec (.clgather c h tag bar) s = execClgather c h tag bar s := rfl
theorem exec_clbcast (c h tag bar) (s : State) : exec (.clbcast c h tag bar) s = execClbcast c h tag bar s := rfl
theorem exec_nop (c) (s : State) : exec (.nop c) s = execNop c s := rfl
theorem exec_pass (c d a) (s : State) : exec (.pass c d a) s = execPass c d a s := rfl
theorem exec_passi (c d w) (s : State) : exec (.passi c d w) s = execPassi c d w s := rfl
theorem exec_passx (c d a b q) (s : State) : exec (.passx c d a b q) s = execPassx c d a b q s := rfl
theorem exec_passf (c d) (s : State) : exec (.passf c d) s = execPassf c d s := rfl
theorem exec_setfs (c a) (s : State) : exec (.setfs c a) s = execSetfs c a s := rfl
theorem exec_exit (c) (s : State) : exec (.exit c) s = execExit c s := rfl
theorem exec_exitp (c a) (s : State) : exec (.exitp c a) s = execExitp c a s := rfl
theorem exec_csrrd (c d n) (s : State) : exec (.csrrd c d n) s = execCsrrd c d n s := rfl
theorem exec_csrwr (c n a) (s : State) : exec (.csrwr c n a) s = execCsrwr c n a s := rfl
theorem exec_inboxClear (c a) (s : State) : exec (.inboxClear c a) s = execInboxClear c a s := rfl
theorem exec_invstateAbandon (c a) (s : State) : exec (.invstateAbandon c a) s = execInvstateAbandon c a s := rfl
theorem exec_waitc (c cls n) (s : State) : exec (.waitc c cls n) s = execWaitc c cls n s := rfl
theorem exec_gtime (c d) (s : State) : exec (.gtime c d) s = execGtime c d s := rfl
theorem exec_trap (c n) (s : State) : exec (.trap c n) s = execTrap c n s := rfl
theorem exec_trapLazy (c) (s : State) : exec (.trapLazy c) s = execTrapLazy c s := rfl
theorem exec_brk (c n) (s : State) : exec (.brk c n) s = execBrk c n s := rfl
theorem exec_br (c off) (s : State) : exec (.br c off) s = execBr c off s := rfl
theorem exec_brz (c a off) (s : State) : exec (.brz c a off) s = execBrz c a off s := rfl
theorem exec_brnz (c a off) (s : State) : exec (.brnz c a off) s = execBrnz c a off s := rfl
theorem exec_brnone (c m off) (s : State) : exec (.brnone c m off) s = execBrnone c m off s := rfl
theorem exec_brany (c m off) (s : State) : exec (.brany c m off) s = execBrany c m off s := rfl
theorem exec_brall (c m off) (s : State) : exec (.brall c m off) s = execBrall c m off s := rfl
theorem exec_call (c off) (s : State) : exec (.call c off) s = execCall c off s := rfl
theorem exec_calli (c v cls) (s : State) : exec (.calli c v cls) s = execCalli c v cls s := rfl
theorem exec_ret (c) (s : State) : exec (.ret c) s = execRet c s := rfl
theorem exec_split (c m off) (s : State) : exec (.split c m off) s = execSplit c m off s := rfl
theorem exec_join (c) (s : State) : exec (.join c) s = execJoin c s := rfl
theorem exec_sadd (c d a b) (s : State) : exec (.sadd c d a b) s = execSadd c d a b s := rfl
theorem exec_ssub (c d a b) (s : State) : exec (.ssub c d a b) s = execSsub c d a b s := rfl
theorem exec_smul (c d a b) (s : State) : exec (.smul c d a b) s = execSmul c d a b s := rfl
theorem exec_smulh (c d a b u) (s : State) : exec (.smulh c d a b u) s = execSmulh c d a b u s := rfl
theorem exec_sdiv (c d a b u) (s : State) : exec (.sdiv c d a b u) s = execSdiv c d a b u s := rfl
theorem exec_srem (c d a b u) (s : State) : exec (.srem c d a b u) s = execSrem c d a b u s := rfl
theorem exec_sand (c d a b) (s : State) : exec (.sand c d a b) s = execSand c d a b s := rfl
theorem exec_sor (c d a b) (s : State) : exec (.sor c d a b) s = execSor c d a b s := rfl
theorem exec_sxor (c d a b) (s : State) : exec (.sxor c d a b) s = execSxor c d a b s := rfl
theorem exec_sshl (c d a b) (s : State) : exec (.sshl c d a b) s = execSshl c d a b s := rfl
theorem exec_sshr (c d a b) (s : State) : exec (.sshr c d a b) s = execSshr c d a b s := rfl
theorem exec_ssra (c d a b) (s : State) : exec (.ssra c d a b) s = execSsra c d a b s := rfl
theorem exec_smin (c d a b) (s : State) : exec (.smin c d a b) s = execSmin c d a b s := rfl
theorem exec_smax (c d a b) (s : State) : exec (.smax c d a b) s = execSmax c d a b s := rfl
theorem exec_sminn (c d a b) (s : State) : exec (.sminn c d a b) s = execSminn c d a b s := rfl
theorem exec_smaxn (c d a b) (s : State) : exec (.smaxn c d a b) s = execSmaxn c d a b s := rfl
theorem exec_scmp (c d a b p) (s : State) : exec (.scmp c d a b p) s = execScmp c d a b p s := rfl
theorem exec_ssel (c d a b cc) (s : State) : exec (.ssel c d a b cc) s = execSsel c d a b cc s := rfl
theorem exec_smov (c d a) (s : State) : exec (.smov c d a) s = execSmov c d a s := rfl
theorem exec_sclz (c d a) (s : State) : exec (.sclz c d a) s = execSclz c d a s := rfl
theorem exec_spopc (c d a) (s : State) : exec (.spopc c d a) s = execSpopc c d a s := rfl
theorem exec_sbfx (c d a pos len1 sgn) (s : State) : exec (.sbfx c d a pos len1 sgn) s = execSbfx c d a pos len1 sgn s := rfl
theorem exec_sbfi (c d a pos len1) (s : State) : exec (.sbfi c d a pos len1) s = execSbfi c d a pos len1 s := rfl
theorem exec_saddi (c d a imm) (s : State) : exec (.saddi c d a imm) s = execSaddi c d a imm s := rfl
theorem exec_sandi (c d a imm) (s : State) : exec (.sandi c d a imm) s = execSandi c d a imm s := rfl
theorem exec_sori (c d a imm) (s : State) : exec (.sori c d a imm) s = execSori c d a imm s := rfl
theorem exec_sxori (c d a imm) (s : State) : exec (.sxori c d a imm) s = execSxori c d a imm s := rfl
theorem exec_sshli (c d a n) (s : State) : exec (.sshli c d a n) s = execSshli c d a n s := rfl
theorem exec_sshri (c d a n) (s : State) : exec (.sshri c d a n) s = execSshri c d a n s := rfl
theorem exec_ssrai (c d a n) (s : State) : exec (.ssrai c d a n) s = execSsrai c d a n s := rfl
theorem exec_smovi (c d imm) (s : State) : exec (.smovi c d imm) s = execSmovi c d imm s := rfl
theorem exec_shii (c d imm) (s : State) : exec (.shii c d imm) s = execShii c d imm s := rfl
theorem exec_scmpi (c d a p imm) (s : State) : exec (.scmpi c d a p imm) s = execScmpi c d a p imm s := rfl
theorem exec_mand (c d a b) (s : State) : exec (.mand c d a b) s = execMand c d a b s := rfl
theorem exec_mor (c d a b) (s : State) : exec (.mor c d a b) s = execMor c d a b s := rfl
theorem exec_mxor (c d a b) (s : State) : exec (.mxor c d a b) s = execMxor c d a b s := rfl
theorem exec_mandn (c d a b) (s : State) : exec (.mandn c d a b) s = execMandn c d a b s := rfl
theorem exec_mnot (c d a) (s : State) : exec (.mnot c d a) s = execMnot c d a s := rfl
theorem exec_mmov (c d a) (s : State) : exec (.mmov c d a) s = execMmov c d a s := rfl
theorem exec_mcnt (c d a) (s : State) : exec (.mcnt c d a) s = execMcnt c d a s := rfl
theorem exec_mfirst (c d a) (s : State) : exec (.mfirst c d a) s = execMfirst c d a s := rfl
theorem exec_mfroms (c d a) (s : State) : exec (.mfroms c d a) s = execMfroms c d a s := rfl
theorem exec_mtos (c d a) (s : State) : exec (.mtos c d a) s = execMtos c d a s := rfl
theorem exec_inv (c o) (s : State) : exec (.inv c o) s = execInv c o s := rfl
theorem exec_dictionaryCode (k n) (s : State) : exec (.dictionaryCode k n) s = execDictionaryCode k n s := rfl
theorem exec_rdpr (c d n) (s : State) : exec (.rdpr c d n) s = execRdpr c d n s := rfl
theorem exec_wrpr (c n a) (s : State) : exec (.wrpr c n a) s = execWrpr c n a s := rfl
theorem exec_voteWrite (c a) (s : State) : exec (.voteWrite c a) s = execVoteWrite c a s := rfl
theorem exec_tret (c) (s : State) : exec (.tret c) s = execTret c s := rfl
theorem exec_haltg (c) (s : State) : exec (.haltg c) s = execHaltg c s := rfl
theorem exec_resumeg (c) (s : State) : exec (.resumeg c) s = execResumeg c s := rfl
theorem exec_shsave (c d a) (s : State) : exec (.shsave c d a) s = execShsave c d a s := rfl
theorem exec_shrest (c d a) (s : State) : exec (.shrest c d a) s = execShrest c d a s := rfl
theorem exec_tlbinv (c op a) (s : State) : exec (.tlbinv c op a) s = execTlbinv c op a s := rfl
theorem exec_evict (c d a) (s : State) : exec (.evict c d a) s = execEvict c d a s := rfl
theorem exec_ctrsel (c a) (s : State) : exec (.ctrsel c a) s = execCtrsel c a s := rfl
theorem exec_aszrec (c d a b) (s : State) : exec (.aszrec c d a b) s = execAszrec c d a b s := rfl
theorem exec_tabort (c a) (s : State) : exec (.tabort c a) s = execTabort c a s := rfl
theorem exec_warpctlStat (c d a) (s : State) : exec (.warpctlStat c d a) s = execWarpctlStat c d a s := rfl
theorem exec_warpctlKill (c d a) (s : State) : exec (.warpctlKill c d a) s = execWarpctlKill c d a s := rfl
theorem exec_unassignedOpcode (w) (s : State) : exec (.unassignedOpcode w) s = execUnassignedOpcode w s := rfl
theorem exec_reservationGrant (s : State) : exec .reservationGrant s = execReservationGrant s := rfl
theorem exec_spill (s : State) : exec .spill s = execSpill s := rfl
theorem exec_slip (s : State) : exec .slip s = execSlip s := rfl
theorem exec_tenureTransfer (s : State) : exec .tenureTransfer s = execTenureTransfer s := rfl
theorem exec_starvationRescue (s : State) : exec .starvationRescue s = execStarvationRescue s := rfl
theorem exec_pathSwitchStall (s : State) : exec .pathSwitchStall s = execPathSwitchStall s := rfl
theorem exec_pathAgeingSwitch (s : State) : exec .pathAgeingSwitch s = execPathAgeingSwitch s := rfl
theorem exec_engineSramError (s : State) : exec .engineSramError s = execEngineSramError s := rfl
theorem exec_loadComplete (s : State) : exec .loadComplete s = execLoadComplete s := rfl
theorem exec_writeApply (s : State) : exec .writeApply s = execWriteApply s := rfl
theorem exec_writeComplete (s : State) : exec .writeComplete s = execWriteComplete s := rfl
theorem exec_streamElementsArrive (s : State) : exec .streamElementsArrive s = execStreamElementsArrive s := rfl
theorem exec_tileWriteAccept (s : State) : exec .tileWriteAccept s = execTileWriteAccept s := rfl
theorem exec_tileReadComplete (s : State) : exec .tileReadComplete s = execTileReadComplete s := rfl
theorem exec_tileDrainComplete (s : State) : exec .tileDrainComplete s = execTileDrainComplete s := rfl
theorem exec_definerVoid (s : State) : exec .definerVoid s = execDefinerVoid s := rfl
theorem exec_tileWaitWatchdog (s : State) : exec .tileWaitWatchdog s = execTileWaitWatchdog s := rfl
theorem exec_blockStart (s : State) : exec .blockStart s = execBlockStart s := rfl
theorem exec_blockRetire (s : State) : exec .blockRetire s = execBlockRetire s := rfl
theorem exec_syncReleaseWave (s : State) : exec .syncReleaseWave s = execSyncReleaseWave s := rfl
theorem exec_leaseGrant (s : State) : exec .leaseGrant s = execLeaseGrant s := rfl
theorem exec_leaseWake (s : State) : exec .leaseWake s = execLeaseWake s := rfl
theorem exec_leaseEviction (s : State) : exec .leaseEviction s = execLeaseEviction s := rfl
theorem exec_engineStop (s : State) : exec .engineStop s = execEngineStop s := rfl
theorem exec_vacateComplete (s : State) : exec .vacateComplete s = execVacateComplete s := rfl
theorem exec_retentionExpiry (s : State) : exec .retentionExpiry s = execRetentionExpiry s := rfl
theorem exec_engineCommandComplete (s : State) : exec .engineCommandComplete s = execEngineCommandComplete s := rfl
theorem exec_collectiveAbort (s : State) : exec .collectiveAbort s = execCollectiveAbort s := rfl
theorem exec_publishVersionWritten (s : State) : exec .publishVersionWritten s = execPublishVersionWritten s := rfl
theorem exec_chainTimeTick (s : State) : exec .chainTimeTick s = execChainTimeTick s := rfl
theorem exec_preemptStop (s : State) : exec .preemptStop s = execPreemptStop s := rfl
theorem exec_hostWindowRead (s : State) : exec .hostWindowRead s = execHostWindowRead s := rfl
theorem exec_hostWindowWrite (s : State) : exec .hostWindowWrite s = execHostWindowWrite s := rfl
theorem exec_publicationDescriptorWrite (s : State) : exec .publicationDescriptorWrite s = execPublicationDescriptorWrite s := rfl
theorem exec_qtailDoorbell (s : State) : exec .qtailDoorbell s = execQtailDoorbell s := rfl
theorem exec_qctlHaltedClear (s : State) : exec .qctlHaltedClear s = execQctlHaltedClear s := rfl
theorem exec_registerWrite (s : State) : exec .registerWrite s = execRegisterWrite s := rfl
theorem exec_launchRecordRead (s : State) : exec .launchRecordRead s = execLaunchRecordRead s := rfl
theorem exec_waitaddrPoll (s : State) : exec .waitaddrPoll s = execWaitaddrPoll s := rfl
theorem exec_gangPlacement (s : State) : exec .gangPlacement s = execGangPlacement s := rfl
theorem exec_launchEnd (s : State) : exec .launchEnd s = execLaunchEnd s := rfl
theorem exec_launchDoneCount (s : State) : exec .launchDoneCount s = execLaunchDoneCount s := rfl
theorem exec_sliceEnd (s : State) : exec .sliceEnd s = execSliceEnd s := rfl
theorem exec_preemptHandlerEntry (s : State) : exec .preemptHandlerEntry s = execPreemptHandlerEntry s := rfl
theorem exec_forcedSave (s : State) : exec .forcedSave s = execForcedSave s := rfl
theorem exec_sliceStart (s : State) : exec .sliceStart s = execSliceStart s := rfl
theorem exec_railStep (s : State) : exec .railStep s = execRailStep s := rfl
theorem exec_railHoldEnd (s : State) : exec .railHoldEnd s = execRailHoldEnd s := rfl
theorem exec_clockSwitch (s : State) : exec .clockSwitch s = execClockSwitch s := rfl
theorem exec_quotaExhausted (s : State) : exec .quotaExhausted s = execQuotaExhausted s := rfl
theorem exec_furlongWindow (s : State) : exec .furlongWindow s = execFurlongWindow s := rfl
theorem exec_furlongPortDown (s : State) : exec .furlongPortDown s = execFurlongPortDown s := rfl
theorem exec_flitRetry (s : State) : exec .flitRetry s = execFlitRetry s := rfl
theorem exec_attest (s : State) : exec .attest s = execAttest s := rfl
theorem exec_readout (s : State) : exec .readout s = execReadout s := rfl
theorem exec_frameset (s : State) : exec .frameset s = execFrameset s := rfl
theorem exec_quotaset (s : State) : exec .quotaset s = execQuotaset s := rfl
theorem exec_perchbind (s : State) : exec .perchbind s = execPerchbind s := rfl
theorem exec_perchunbind (s : State) : exec .perchunbind s = execPerchunbind s := rfl
theorem exec_checkpoint (s : State) : exec .checkpoint s = execCheckpoint s := rfl
theorem exec_checkpointEnd (s : State) : exec .checkpointEnd s = execCheckpointEnd s := rfl
theorem exec_ckstatus (s : State) : exec .ckstatus s = execCkstatus s := rfl
theorem exec_restore (s : State) : exec .restore s = execRestore s := rfl
theorem exec_restoreEnd (s : State) : exec .restoreEnd s = execRestoreEnd s := rfl
theorem exec_warmreset (s : State) : exec .warmreset s = execWarmreset s := rfl
theorem exec_powerOnReset (s : State) : exec .powerOnReset s = execPowerOnReset s := rfl
theorem exec_perchWarpStop (s : State) : exec .perchWarpStop s = execPerchWarpStop s := rfl
theorem exec_perchPathHold (s : State) : exec .perchPathHold s = execPerchPathHold s := rfl
theorem exec_perchReleaseWarp (s : State) : exec .perchReleaseWarp s = execPerchReleaseWarp s := rfl
theorem exec_perchReleasePath (s : State) : exec .perchReleasePath s = execPerchReleasePath s := rfl
theorem exec_perchReleaseAll (s : State) : exec .perchReleaseAll s = execPerchReleaseAll s := rfl
theorem exec_breakpointHit (s : State) : exec .breakpointHit s = execBreakpointHit s := rfl
theorem exec_mdataRead (s : State) : exec .mdataRead s = execMdataRead s := rfl
theorem exec_mdataWrite (s : State) : exec .mdataWrite s = execMdataWrite s := rfl
theorem exec_sampleArm (s : State) : exec .sampleArm s = execSampleArm s := rfl
theorem exec_traceArm (s : State) : exec .traceArm s = execTraceArm s := rfl
theorem exec_stallSample (s : State) : exec .stallSample s = execStallSample s := rfl
theorem exec_furlongPortUp (s : State) : exec .furlongPortUp s = execFurlongPortUp s := rfl
theorem exec_furlongPortDegraded (s : State) : exec .furlongPortDegraded s = execFurlongPortDegraded s := rfl
theorem exec_keyDomainRekey (s : State) : exec .keyDomainRekey s = execKeyDomainRekey s := rfl
theorem exec_partitionReconfigure (s : State) : exec .partitionReconfigure s = execPartitionReconfigure s := rfl
theorem exec_replayCapture (s : State) : exec .replayCapture s = execReplayCapture s := rfl
theorem exec_replay (s : State) : exec .replay s = execReplay s := rfl

end Sys2Proof.Machine
end

