-- ==== Sys2Proof/Laws/State.lean ====
section
/-! SUPPORT. The small laws of the state's updates: one per field per update, each true by definition, so that no proof unfolds a record update. -/
namespace Sys2Proof.Machine

/-! ## State.setW -/

@[simp] theorem State.setW_w (s : State) (x : Warp) : (s.setW x).w = x := rfl
@[simp] theorem State.setW_warps (s : State) (x : Warp) : (s.setW x).warps = s.warps := rfl
@[simp] theorem State.setW_cores (s : State) (x : Warp) : (s.setW x).cores = s.cores := rfl
@[simp] theorem State.setW_clusters (s : State) (x : Warp) : (s.setW x).clusters = s.clusters := rfl
@[simp] theorem State.setW_gangs (s : State) (x : Warp) : (s.setW x).gangs = s.gangs := rfl
@[simp] theorem State.setW_launches (s : State) (x : Warp) : (s.setW x).launches = s.launches := rfl
@[simp] theorem State.setW_parts (s : State) (x : Warp) : (s.setW x).parts = s.parts := rfl
@[simp] theorem State.setW_vdevs (s : State) (x : Warp) : (s.setW x).vdevs = s.vdevs := rfl
@[simp] theorem State.setW_mem (s : State) (x : Warp) : (s.setW x).mem = s.mem := rfl
@[simp] theorem State.setW_memPoison (s : State) (x : Warp) : (s.setW x).memPoison = s.memPoison := rfl
@[simp] theorem State.setW_horizon (s : State) (x : Warp) : (s.setW x).horizon = s.horizon := rfl
@[simp] theorem State.setW_tick (s : State) (x : Warp) : (s.setW x).tick = s.tick := rfl
@[simp] theorem State.setW_io (s : State) (x : Warp) : (s.setW x).io = s.io := rfl
@[simp] theorem State.setW_arg (s : State) (x : Warp) : (s.setW x).arg = s.arg := rfl
@[simp] theorem State.setW_ilen (s : State) (x : Warp) : (s.setW x).ilen = s.ilen := rfl
@[simp] theorem State.setW_able (s : State) (x : Warp) : (s.setW x).able = s.able := rfl
@[simp] theorem State.setW_ableCore (s : State) (x : Warp) : (s.setW x).ableCore = s.ableCore := rfl
@[simp] theorem State.setW_due (s : State) (x : Warp) : (s.setW x).due = s.due := rfl
@[simp] theorem State.setW_agenda (s : State) (x : Warp) : (s.setW x).agenda = s.agenda := rfl
@[simp] theorem State.setW_freeCtr (s : State) (x : Warp) : (s.setW x).freeCtr = s.freeCtr := rfl
@[simp] theorem State.setW_arrCtr (s : State) (x : Warp) : (s.setW x).arrCtr = s.arrCtr := rfl
@[simp] theorem State.setW_ext (s : State) (x : Warp) : (s.setW x).ext = s.ext := rfl

/-! ## State.setCore -/

@[simp] theorem State.setCore_w (s : State) (c : Nat) (x : Core) : (s.setCore c x).w = s.w := rfl
@[simp] theorem State.setCore_warps (s : State) (c : Nat) (x : Core) : (s.setCore c x).warps = s.warps := rfl
@[simp] theorem State.setCore_cores (s : State) (c : Nat) (x : Core) : (s.setCore c x).cores = s.cores.put c x := rfl
@[simp] theorem State.setCore_clusters (s : State) (c : Nat) (x : Core) : (s.setCore c x).clusters = s.clusters := rfl
@[simp] theorem State.setCore_gangs (s : State) (c : Nat) (x : Core) : (s.setCore c x).gangs = s.gangs := rfl
@[simp] theorem State.setCore_launches (s : State) (c : Nat) (x : Core) : (s.setCore c x).launches = s.launches := rfl
@[simp] theorem State.setCore_parts (s : State) (c : Nat) (x : Core) : (s.setCore c x).parts = s.parts := rfl
@[simp] theorem State.setCore_vdevs (s : State) (c : Nat) (x : Core) : (s.setCore c x).vdevs = s.vdevs := rfl
@[simp] theorem State.setCore_mem (s : State) (c : Nat) (x : Core) : (s.setCore c x).mem = s.mem := rfl
@[simp] theorem State.setCore_memPoison (s : State) (c : Nat) (x : Core) : (s.setCore c x).memPoison = s.memPoison := rfl
@[simp] theorem State.setCore_horizon (s : State) (c : Nat) (x : Core) : (s.setCore c x).horizon = s.horizon := rfl
@[simp] theorem State.setCore_tick (s : State) (c : Nat) (x : Core) : (s.setCore c x).tick = s.tick := rfl
@[simp] theorem State.setCore_io (s : State) (c : Nat) (x : Core) : (s.setCore c x).io = s.io := rfl
@[simp] theorem State.setCore_arg (s : State) (c : Nat) (x : Core) : (s.setCore c x).arg = s.arg := rfl
@[simp] theorem State.setCore_ilen (s : State) (c : Nat) (x : Core) : (s.setCore c x).ilen = s.ilen := rfl
@[simp] theorem State.setCore_able (s : State) (c : Nat) (x : Core) : (s.setCore c x).able = s.able := rfl
@[simp] theorem State.setCore_ableCore (s : State) (c : Nat) (x : Core) : (s.setCore c x).ableCore = s.ableCore := rfl
@[simp] theorem State.setCore_due (s : State) (c : Nat) (x : Core) : (s.setCore c x).due = s.due := rfl
@[simp] theorem State.setCore_agenda (s : State) (c : Nat) (x : Core) : (s.setCore c x).agenda = s.agenda := rfl
@[simp] theorem State.setCore_freeCtr (s : State) (c : Nat) (x : Core) : (s.setCore c x).freeCtr = s.freeCtr := rfl
@[simp] theorem State.setCore_arrCtr (s : State) (c : Nat) (x : Core) : (s.setCore c x).arrCtr = s.arrCtr := rfl
@[simp] theorem State.setCore_ext (s : State) (c : Nat) (x : Core) : (s.setCore c x).ext = s.ext := rfl

/-! ## State.setCluster -/

@[simp] theorem State.setCluster_w (s : State) (k : Nat) (x : Cluster) : (s.setCluster k x).w = s.w := rfl
@[simp] theorem State.setCluster_warps (s : State) (k : Nat) (x : Cluster) : (s.setCluster k x).warps = s.warps := rfl
@[simp] theorem State.setCluster_cores (s : State) (k : Nat) (x : Cluster) : (s.setCluster k x).cores = s.cores := rfl
@[simp] theorem State.setCluster_clusters (s : State) (k : Nat) (x : Cluster) : (s.setCluster k x).clusters = s.clusters.put k x := rfl
@[simp] theorem State.setCluster_gangs (s : State) (k : Nat) (x : Cluster) : (s.setCluster k x).gangs = s.gangs := rfl
@[simp] theorem State.setCluster_launches (s : State) (k : Nat) (x : Cluster) : (s.setCluster k x).launches = s.launches := rfl
@[simp] theorem State.setCluster_parts (s : State) (k : Nat) (x : Cluster) : (s.setCluster k x).parts = s.parts := rfl
@[simp] theorem State.setCluster_vdevs (s : State) (k : Nat) (x : Cluster) : (s.setCluster k x).vdevs = s.vdevs := rfl
@[simp] theorem State.setCluster_mem (s : State) (k : Nat) (x : Cluster) : (s.setCluster k x).mem = s.mem := rfl
@[simp] theorem State.setCluster_memPoison (s : State) (k : Nat) (x : Cluster) : (s.setCluster k x).memPoison = s.memPoison := rfl
@[simp] theorem State.setCluster_horizon (s : State) (k : Nat) (x : Cluster) : (s.setCluster k x).horizon = s.horizon := rfl
@[simp] theorem State.setCluster_tick (s : State) (k : Nat) (x : Cluster) : (s.setCluster k x).tick = s.tick := rfl
@[simp] theorem State.setCluster_io (s : State) (k : Nat) (x : Cluster) : (s.setCluster k x).io = s.io := rfl
@[simp] theorem State.setCluster_arg (s : State) (k : Nat) (x : Cluster) : (s.setCluster k x).arg = s.arg := rfl
@[simp] theorem State.setCluster_ilen (s : State) (k : Nat) (x : Cluster) : (s.setCluster k x).ilen = s.ilen := rfl
@[simp] theorem State.setCluster_able (s : State) (k : Nat) (x : Cluster) : (s.setCluster k x).able = s.able := rfl
@[simp] theorem State.setCluster_ableCore (s : State) (k : Nat) (x : Cluster) : (s.setCluster k x).ableCore = s.ableCore := rfl
@[simp] theorem State.setCluster_due (s : State) (k : Nat) (x : Cluster) : (s.setCluster k x).due = s.due := rfl
@[simp] theorem State.setCluster_agenda (s : State) (k : Nat) (x : Cluster) : (s.setCluster k x).agenda = s.agenda := rfl
@[simp] theorem State.setCluster_freeCtr (s : State) (k : Nat) (x : Cluster) : (s.setCluster k x).freeCtr = s.freeCtr := rfl
@[simp] theorem State.setCluster_arrCtr (s : State) (k : Nat) (x : Cluster) : (s.setCluster k x).arrCtr = s.arrCtr := rfl
@[simp] theorem State.setCluster_ext (s : State) (k : Nat) (x : Cluster) : (s.setCluster k x).ext = s.ext := rfl

/-! ## State.setPart -/

@[simp] theorem State.setPart_w (s : State) (p : Nat) (x : Part) : (s.setPart p x).w = s.w := rfl
@[simp] theorem State.setPart_warps (s : State) (p : Nat) (x : Part) : (s.setPart p x).warps = s.warps := rfl
@[simp] theorem State.setPart_cores (s : State) (p : Nat) (x : Part) : (s.setPart p x).cores = s.cores := rfl
@[simp] theorem State.setPart_clusters (s : State) (p : Nat) (x : Part) : (s.setPart p x).clusters = s.clusters := rfl
@[simp] theorem State.setPart_gangs (s : State) (p : Nat) (x : Part) : (s.setPart p x).gangs = s.gangs := rfl
@[simp] theorem State.setPart_launches (s : State) (p : Nat) (x : Part) : (s.setPart p x).launches = s.launches := rfl
@[simp] theorem State.setPart_parts (s : State) (p : Nat) (x : Part) : (s.setPart p x).parts = s.parts.put p x := rfl
@[simp] theorem State.setPart_vdevs (s : State) (p : Nat) (x : Part) : (s.setPart p x).vdevs = s.vdevs := rfl
@[simp] theorem State.setPart_mem (s : State) (p : Nat) (x : Part) : (s.setPart p x).mem = s.mem := rfl
@[simp] theorem State.setPart_memPoison (s : State) (p : Nat) (x : Part) : (s.setPart p x).memPoison = s.memPoison := rfl
@[simp] theorem State.setPart_horizon (s : State) (p : Nat) (x : Part) : (s.setPart p x).horizon = s.horizon := rfl
@[simp] theorem State.setPart_tick (s : State) (p : Nat) (x : Part) : (s.setPart p x).tick = s.tick := rfl
@[simp] theorem State.setPart_io (s : State) (p : Nat) (x : Part) : (s.setPart p x).io = s.io := rfl
@[simp] theorem State.setPart_arg (s : State) (p : Nat) (x : Part) : (s.setPart p x).arg = s.arg := rfl
@[simp] theorem State.setPart_ilen (s : State) (p : Nat) (x : Part) : (s.setPart p x).ilen = s.ilen := rfl
@[simp] theorem State.setPart_able (s : State) (p : Nat) (x : Part) : (s.setPart p x).able = s.able := rfl
@[simp] theorem State.setPart_ableCore (s : State) (p : Nat) (x : Part) : (s.setPart p x).ableCore = s.ableCore := rfl
@[simp] theorem State.setPart_due (s : State) (p : Nat) (x : Part) : (s.setPart p x).due = s.due := rfl
@[simp] theorem State.setPart_agenda (s : State) (p : Nat) (x : Part) : (s.setPart p x).agenda = s.agenda := rfl
@[simp] theorem State.setPart_freeCtr (s : State) (p : Nat) (x : Part) : (s.setPart p x).freeCtr = s.freeCtr := rfl
@[simp] theorem State.setPart_arrCtr (s : State) (p : Nat) (x : Part) : (s.setPart p x).arrCtr = s.arrCtr := rfl
@[simp] theorem State.setPart_ext (s : State) (p : Nat) (x : Part) : (s.setPart p x).ext = s.ext := rfl

/-! ## State.setVDev -/

@[simp] theorem State.setVDev_w (s : State) (v : Nat) (x : VDev) : (s.setVDev v x).w = s.w := rfl
@[simp] theorem State.setVDev_warps (s : State) (v : Nat) (x : VDev) : (s.setVDev v x).warps = s.warps := rfl
@[simp] theorem State.setVDev_cores (s : State) (v : Nat) (x : VDev) : (s.setVDev v x).cores = s.cores := rfl
@[simp] theorem State.setVDev_clusters (s : State) (v : Nat) (x : VDev) : (s.setVDev v x).clusters = s.clusters := rfl
@[simp] theorem State.setVDev_gangs (s : State) (v : Nat) (x : VDev) : (s.setVDev v x).gangs = s.gangs := rfl
@[simp] theorem State.setVDev_launches (s : State) (v : Nat) (x : VDev) : (s.setVDev v x).launches = s.launches := rfl
@[simp] theorem State.setVDev_parts (s : State) (v : Nat) (x : VDev) : (s.setVDev v x).parts = s.parts := rfl
@[simp] theorem State.setVDev_vdevs (s : State) (v : Nat) (x : VDev) : (s.setVDev v x).vdevs = s.vdevs.put v x := rfl
@[simp] theorem State.setVDev_mem (s : State) (v : Nat) (x : VDev) : (s.setVDev v x).mem = s.mem := rfl
@[simp] theorem State.setVDev_memPoison (s : State) (v : Nat) (x : VDev) : (s.setVDev v x).memPoison = s.memPoison := rfl
@[simp] theorem State.setVDev_horizon (s : State) (v : Nat) (x : VDev) : (s.setVDev v x).horizon = s.horizon := rfl
@[simp] theorem State.setVDev_tick (s : State) (v : Nat) (x : VDev) : (s.setVDev v x).tick = s.tick := rfl
@[simp] theorem State.setVDev_io (s : State) (v : Nat) (x : VDev) : (s.setVDev v x).io = s.io := rfl
@[simp] theorem State.setVDev_arg (s : State) (v : Nat) (x : VDev) : (s.setVDev v x).arg = s.arg := rfl
@[simp] theorem State.setVDev_ilen (s : State) (v : Nat) (x : VDev) : (s.setVDev v x).ilen = s.ilen := rfl
@[simp] theorem State.setVDev_able (s : State) (v : Nat) (x : VDev) : (s.setVDev v x).able = s.able := rfl
@[simp] theorem State.setVDev_ableCore (s : State) (v : Nat) (x : VDev) : (s.setVDev v x).ableCore = s.ableCore := rfl
@[simp] theorem State.setVDev_due (s : State) (v : Nat) (x : VDev) : (s.setVDev v x).due = s.due := rfl
@[simp] theorem State.setVDev_agenda (s : State) (v : Nat) (x : VDev) : (s.setVDev v x).agenda = s.agenda := rfl
@[simp] theorem State.setVDev_freeCtr (s : State) (v : Nat) (x : VDev) : (s.setVDev v x).freeCtr = s.freeCtr := rfl
@[simp] theorem State.setVDev_arrCtr (s : State) (v : Nat) (x : VDev) : (s.setVDev v x).arrCtr = s.arrCtr := rfl
@[simp] theorem State.setVDev_ext (s : State) (v : Nat) (x : VDev) : (s.setVDev v x).ext = s.ext := rfl

/-! ## State.modIo -/

@[simp] theorem State.modIo_w (s : State) (f : IoDie → IoDie) : (s.modIo f).w = s.w := rfl
@[simp] theorem State.modIo_warps (s : State) (f : IoDie → IoDie) : (s.modIo f).warps = s.warps := rfl
@[simp] theorem State.modIo_cores (s : State) (f : IoDie → IoDie) : (s.modIo f).cores = s.cores := rfl
@[simp] theorem State.modIo_clusters (s : State) (f : IoDie → IoDie) : (s.modIo f).clusters = s.clusters := rfl
@[simp] theorem State.modIo_gangs (s : State) (f : IoDie → IoDie) : (s.modIo f).gangs = s.gangs := rfl
@[simp] theorem State.modIo_launches (s : State) (f : IoDie → IoDie) : (s.modIo f).launches = s.launches := rfl
@[simp] theorem State.modIo_parts (s : State) (f : IoDie → IoDie) : (s.modIo f).parts = s.parts := rfl
@[simp] theorem State.modIo_vdevs (s : State) (f : IoDie → IoDie) : (s.modIo f).vdevs = s.vdevs := rfl
@[simp] theorem State.modIo_mem (s : State) (f : IoDie → IoDie) : (s.modIo f).mem = s.mem := rfl
@[simp] theorem State.modIo_memPoison (s : State) (f : IoDie → IoDie) : (s.modIo f).memPoison = s.memPoison := rfl
@[simp] theorem State.modIo_horizon (s : State) (f : IoDie → IoDie) : (s.modIo f).horizon = s.horizon := rfl
@[simp] theorem State.modIo_tick (s : State) (f : IoDie → IoDie) : (s.modIo f).tick = s.tick := rfl
@[simp] theorem State.modIo_io (s : State) (f : IoDie → IoDie) : (s.modIo f).io = f s.io := rfl
@[simp] theorem State.modIo_arg (s : State) (f : IoDie → IoDie) : (s.modIo f).arg = s.arg := rfl
@[simp] theorem State.modIo_ilen (s : State) (f : IoDie → IoDie) : (s.modIo f).ilen = s.ilen := rfl
@[simp] theorem State.modIo_able (s : State) (f : IoDie → IoDie) : (s.modIo f).able = s.able := rfl
@[simp] theorem State.modIo_ableCore (s : State) (f : IoDie → IoDie) : (s.modIo f).ableCore = s.ableCore := rfl
@[simp] theorem State.modIo_due (s : State) (f : IoDie → IoDie) : (s.modIo f).due = s.due := rfl
@[simp] theorem State.modIo_agenda (s : State) (f : IoDie → IoDie) : (s.modIo f).agenda = s.agenda := rfl
@[simp] theorem State.modIo_freeCtr (s : State) (f : IoDie → IoDie) : (s.modIo f).freeCtr = s.freeCtr := rfl
@[simp] theorem State.modIo_arrCtr (s : State) (f : IoDie → IoDie) : (s.modIo f).arrCtr = s.arrCtr := rfl
@[simp] theorem State.modIo_ext (s : State) (f : IoDie → IoDie) : (s.modIo f).ext = s.ext := rfl

/-! ## State.setPath -/

@[simp] theorem State.setPath_w (s : State) (p : Path) : (s.setPath p).w = { s.w with p := p } := rfl
@[simp] theorem State.setPath_warps (s : State) (p : Path) : (s.setPath p).warps = s.warps := rfl
@[simp] theorem State.setPath_cores (s : State) (p : Path) : (s.setPath p).cores = s.cores := rfl
@[simp] theorem State.setPath_clusters (s : State) (p : Path) : (s.setPath p).clusters = s.clusters := rfl
@[simp] theorem State.setPath_gangs (s : State) (p : Path) : (s.setPath p).gangs = s.gangs := rfl
@[simp] theorem State.setPath_launches (s : State) (p : Path) : (s.setPath p).launches = s.launches := rfl
@[simp] theorem State.setPath_parts (s : State) (p : Path) : (s.setPath p).parts = s.parts := rfl
@[simp] theorem State.setPath_vdevs (s : State) (p : Path) : (s.setPath p).vdevs = s.vdevs := rfl
@[simp] theorem State.setPath_mem (s : State) (p : Path) : (s.setPath p).mem = s.mem := rfl
@[simp] theorem State.setPath_memPoison (s : State) (p : Path) : (s.setPath p).memPoison = s.memPoison := rfl
@[simp] theorem State.setPath_horizon (s : State) (p : Path) : (s.setPath p).horizon = s.horizon := rfl
@[simp] theorem State.setPath_tick (s : State) (p : Path) : (s.setPath p).tick = s.tick := rfl
@[simp] theorem State.setPath_io (s : State) (p : Path) : (s.setPath p).io = s.io := rfl
@[simp] theorem State.setPath_arg (s : State) (p : Path) : (s.setPath p).arg = s.arg := rfl
@[simp] theorem State.setPath_ilen (s : State) (p : Path) : (s.setPath p).ilen = s.ilen := rfl
@[simp] theorem State.setPath_able (s : State) (p : Path) : (s.setPath p).able = s.able := rfl
@[simp] theorem State.setPath_ableCore (s : State) (p : Path) : (s.setPath p).ableCore = s.ableCore := rfl
@[simp] theorem State.setPath_due (s : State) (p : Path) : (s.setPath p).due = s.due := rfl
@[simp] theorem State.setPath_agenda (s : State) (p : Path) : (s.setPath p).agenda = s.agenda := rfl
@[simp] theorem State.setPath_freeCtr (s : State) (p : Path) : (s.setPath p).freeCtr = s.freeCtr := rfl
@[simp] theorem State.setPath_arrCtr (s : State) (p : Path) : (s.setPath p).arrCtr = s.arrCtr := rfl
@[simp] theorem State.setPath_ext (s : State) (p : Path) : (s.setPath p).ext = s.ext := rfl

/-! ## State.post -/

@[simp] theorem State.post_w (s : State) (r : Instr) (a : Arg) : (s.post r a).w = s.w := rfl
@[simp] theorem State.post_warps (s : State) (r : Instr) (a : Arg) : (s.post r a).warps = s.warps := rfl
@[simp] theorem State.post_cores (s : State) (r : Instr) (a : Arg) : (s.post r a).cores = s.cores := rfl
@[simp] theorem State.post_clusters (s : State) (r : Instr) (a : Arg) : (s.post r a).clusters = s.clusters := rfl
@[simp] theorem State.post_gangs (s : State) (r : Instr) (a : Arg) : (s.post r a).gangs = s.gangs := rfl
@[simp] theorem State.post_launches (s : State) (r : Instr) (a : Arg) : (s.post r a).launches = s.launches := rfl
@[simp] theorem State.post_parts (s : State) (r : Instr) (a : Arg) : (s.post r a).parts = s.parts := rfl
@[simp] theorem State.post_vdevs (s : State) (r : Instr) (a : Arg) : (s.post r a).vdevs = s.vdevs := rfl
@[simp] theorem State.post_mem (s : State) (r : Instr) (a : Arg) : (s.post r a).mem = s.mem := rfl
@[simp] theorem State.post_memPoison (s : State) (r : Instr) (a : Arg) : (s.post r a).memPoison = s.memPoison := rfl
@[simp] theorem State.post_horizon (s : State) (r : Instr) (a : Arg) : (s.post r a).horizon = s.horizon := rfl
@[simp] theorem State.post_tick (s : State) (r : Instr) (a : Arg) : (s.post r a).tick = s.tick := rfl
@[simp] theorem State.post_io (s : State) (r : Instr) (a : Arg) : (s.post r a).io = s.io := rfl
@[simp] theorem State.post_arg (s : State) (r : Instr) (a : Arg) : (s.post r a).arg = s.arg := rfl
@[simp] theorem State.post_ilen (s : State) (r : Instr) (a : Arg) : (s.post r a).ilen = s.ilen := rfl
@[simp] theorem State.post_able (s : State) (r : Instr) (a : Arg) : (s.post r a).able = s.able := rfl
@[simp] theorem State.post_ableCore (s : State) (r : Instr) (a : Arg) : (s.post r a).ableCore = s.ableCore := rfl
@[simp] theorem State.post_due (s : State) (r : Instr) (a : Arg) : (s.post r a).due = s.due ++ [⟨r, a⟩] := rfl
@[simp] theorem State.post_agenda (s : State) (r : Instr) (a : Arg) : (s.post r a).agenda = s.agenda := rfl
@[simp] theorem State.post_freeCtr (s : State) (r : Instr) (a : Arg) : (s.post r a).freeCtr = s.freeCtr := rfl
@[simp] theorem State.post_arrCtr (s : State) (r : Instr) (a : Arg) : (s.post r a).arrCtr = s.arrCtr := rfl
@[simp] theorem State.post_ext (s : State) (r : Instr) (a : Arg) : (s.post r a).ext = s.ext := rfl

/-! ## Warp.advance -/

@[simp] theorem Warp.advance_real (w : Warp) (n : Nat) : (w.advance n).real = w.real := rfl
@[simp] theorem Warp.advance_core (w : Warp) (n : Nat) : (w.advance n).core = w.core := rfl
@[simp] theorem Warp.advance_idx (w : Warp) (n : Nat) : (w.advance n).idx = w.idx := rfl
@[simp] theorem Warp.advance_life (w : Warp) (n : Nat) : (w.advance n).life = w.life := rfl
@[simp] theorem Warp.advance_id (w : Warp) (n : Nat) : (w.advance n).id = w.id := rfl
@[simp] theorem Warp.advance_vregs (w : Warp) (n : Nat) : (w.advance n).vregs = w.vregs := rfl
@[simp] theorem Warp.advance_sregs (w : Warp) (n : Nat) : (w.advance n).sregs = w.sregs := rfl
@[simp] theorem Warp.advance_masks (w : Warp) (n : Nat) : (w.advance n).masks = w.masks := rfl
@[simp] theorem Warp.advance_brk (w : Warp) (n : Nat) : (w.advance n).brk = w.brk := rfl
@[simp] theorem Warp.advance_sds (w : Warp) (n : Nat) : (w.advance n).sds = w.sds := rfl
@[simp] theorem Warp.advance_resV (w : Warp) (n : Nat) : (w.advance n).resV = w.resV := rfl
@[simp] theorem Warp.advance_resS (w : Warp) (n : Nat) : (w.advance n).resS = w.resS := rfl
@[simp] theorem Warp.advance_owed (w : Warp) (n : Nat) : (w.advance n).owed = w.owed := rfl
@[simp] theorem Warp.advance_ops (w : Warp) (n : Nat) : (w.advance n).ops = w.ops := rfl
@[simp] theorem Warp.advance_opNext (w : Warp) (n : Nat) : (w.advance n).opNext = w.opNext := rfl
@[simp] theorem Warp.advance_lctb (w : Warp) (n : Nat) : (w.advance n).lctb = w.lctb := rfl
@[simp] theorem Warp.advance_lctg (w : Warp) (n : Nat) : (w.advance n).lctg = w.lctg := rfl
@[simp] theorem Warp.advance_lctd (w : Warp) (n : Nat) : (w.advance n).lctd = w.lctd := rfl
@[simp] theorem Warp.advance_fsucc (w : Warp) (n : Nat) : (w.advance n).fsucc = w.fsucc := rfl
@[simp] theorem Warp.advance_fsuccOld (w : Warp) (n : Nat) : (w.advance n).fsuccOld = w.fsuccOld := rfl
@[simp] theorem Warp.advance_slipw (w : Warp) (n : Nat) : (w.advance n).slipw = w.slipw := rfl
@[simp] theorem Warp.advance_tenure (w : Warp) (n : Nat) : (w.advance n).tenure = w.tenure := rfl
@[simp] theorem Warp.advance_inboxFull (w : Warp) (n : Nat) : (w.advance n).inboxFull = w.inboxFull := rfl
@[simp] theorem Warp.advance_inboxFrom (w : Warp) (n : Nat) : (w.advance n).inboxFrom = w.inboxFrom := rfl
@[simp] theorem Warp.advance_baton (w : Warp) (n : Nat) : (w.advance n).baton = w.baton := rfl
@[simp] theorem Warp.advance_rmode (w : Warp) (n : Nat) : (w.advance n).rmode = w.rmode := rfl
@[simp] theorem Warp.advance_trapen (w : Warp) (n : Nat) : (w.advance n).trapen = w.trapen := rfl
@[simp] theorem Warp.advance_fpstat (w : Warp) (n : Nat) : (w.advance n).fpstat = w.fpstat := rfl
@[simp] theorem Warp.advance_exh (w : Warp) (n : Nat) : (w.advance n).exh = w.exh := rfl
@[simp] theorem Warp.advance_voidrd (w : Warp) (n : Nat) : (w.advance n).voidrd = w.voidrd := rfl
@[simp] theorem Warp.advance_invValid (w : Warp) (n : Nat) : (w.advance n).invValid = w.invValid := rfl
@[simp] theorem Warp.advance_invIter (w : Warp) (n : Nat) : (w.advance n).invIter = w.invIter := rfl
@[simp] theorem Warp.advance_pid (w : Warp) (n : Nat) : (w.advance n).pid = w.pid := rfl
@[simp] theorem Warp.advance_p (w : Warp) (n : Nat) : (w.advance n).p = w.p.step n := rfl
@[simp] theorem Warp.advance_paths (w : Warp) (n : Nat) : (w.advance n).paths = w.paths := rfl
@[simp] theorem Warp.advance_ldr (w : Warp) (n : Nat) : (w.advance n).ldr = w.ldr := rfl
@[simp] theorem Warp.advance_ldrLost (w : Warp) (n : Nat) : (w.advance n).ldrLost = w.ldrLost := rfl
@[simp] theorem Warp.advance_win (w : Warp) (n : Nat) : (w.advance n).win = w.win - 1 := rfl
@[simp] theorem Warp.advance_disp (w : Warp) (n : Nat) : (w.advance n).disp = w.disp := rfl
@[simp] theorem Warp.advance_lastSite (w : Warp) (n : Nat) : (w.advance n).lastSite = w.lastSite := rfl
@[simp] theorem Warp.advance_keptSite (w : Warp) (n : Nat) : (w.advance n).keptSite = w.keptSite := rfl
@[simp] theorem Warp.advance_keptEntry (w : Warp) (n : Nat) : (w.advance n).keptEntry = w.keptEntry := rfl
@[simp] theorem Warp.advance_inv (w : Warp) (n : Nat) : (w.advance n).inv = w.inv := rfl
@[simp] theorem Warp.advance_idle (w : Warp) (n : Nat) : (w.advance n).idle = w.idle := rfl
@[simp] theorem Warp.advance_slips (w : Warp) (n : Nat) : (w.advance n).slips = w.slips := rfl
@[simp] theorem Warp.advance_age (w : Warp) (n : Nat) : (w.advance n).age = w.age := rfl
@[simp] theorem Warp.advance_wait (w : Warp) (n : Nat) : (w.advance n).wait = .none := rfl
@[simp] theorem Warp.advance_park (w : Warp) (n : Nat) : (w.advance n).park = w.park := rfl
@[simp] theorem Warp.advance_parkT (w : Warp) (n : Nat) : (w.advance n).parkT = w.parkT := rfl
@[simp] theorem Warp.advance_wasParked (w : Warp) (n : Nat) : (w.advance n).wasParked = w.wasParked := rfl
@[simp] theorem Warp.advance_parks (w : Warp) (n : Nat) : (w.advance n).parks = w.parks := rfl
@[simp] theorem Warp.advance_arrive (w : Warp) (n : Nat) : (w.advance n).arrive = w.arrive := rfl
@[simp] theorem Warp.advance_pendSync (w : Warp) (n : Nat) : (w.advance n).pendSync = none := rfl
@[simp] theorem Warp.advance_halted (w : Warp) (n : Nat) : (w.advance n).halted = w.halted := rfl
@[simp] theorem Warp.advance_haltReq (w : Warp) (n : Nat) : (w.advance n).haltReq = w.haltReq := rfl
@[simp] theorem Warp.advance_perched (w : Warp) (n : Nat) : (w.advance n).perched = w.perched := rfl
@[simp] theorem Warp.advance_perchReq (w : Warp) (n : Nat) : (w.advance n).perchReq = w.perchReq := rfl
@[simp] theorem Warp.advance_brkArg (w : Warp) (n : Nat) : (w.advance n).brkArg = w.brkArg := rfl
@[simp] theorem Warp.advance_heldAll (w : Warp) (n : Nat) : (w.advance n).heldAll = w.heldAll := rfl
@[simp] theorem Warp.advance_lastPc (w : Warp) (n : Nat) : (w.advance n).lastPc = w.lastPc := rfl
@[simp] theorem Warp.advance_stopReq (w : Warp) (n : Nat) : (w.advance n).stopReq = w.stopReq := rfl
@[simp] theorem Warp.advance_stopped (w : Warp) (n : Nat) : (w.advance n).stopped = w.stopped := rfl
@[simp] theorem Warp.advance_entry (w : Warp) (n : Nat) : (w.advance n).entry = w.entry := rfl
@[simp] theorem Warp.advance_smode (w : Warp) (n : Nat) : (w.advance n).smode = w.smode := rfl
@[simp] theorem Warp.advance_active (w : Warp) (n : Nat) : (w.advance n).active = w.active := rfl
@[simp] theorem Warp.advance_ppm (w : Warp) (n : Nat) : (w.advance n).ppm = w.ppm := rfl
@[simp] theorem Warp.advance_tcode (w : Warp) (n : Nat) : (w.advance n).tcode = w.tcode := rfl
@[simp] theorem Warp.advance_tsub (w : Warp) (n : Nat) : (w.advance n).tsub = w.tsub := rfl
@[simp] theorem Warp.advance_taddr (w : Warp) (n : Nat) : (w.advance n).taddr = w.taddr := rfl
@[simp] theorem Warp.advance_tmask (w : Warp) (n : Nat) : (w.advance n).tmask = w.tmask := rfl
@[simp] theorem Warp.advance_tpc (w : Warp) (n : Nat) : (w.advance n).tpc = w.tpc := rfl
@[simp] theorem Warp.advance_shadow (w : Warp) (n : Nat) : (w.advance n).shadow = w.shadow := rfl
@[simp] theorem Warp.advance_trapV (w : Warp) (n : Nat) : (w.advance n).trapV = w.trapV := rfl
@[simp] theorem Warp.advance_trapS (w : Warp) (n : Nat) : (w.advance n).trapS = w.trapS := rfl
@[simp] theorem Warp.advance_busy (w : Warp) (n : Nat) : (w.advance n).busy = w.busy := rfl
@[simp] theorem Warp.advance_passHold (w : Warp) (n : Nat) : (w.advance n).passHold = w.passHold := rfl
@[simp] theorem Warp.advance_passPc (w : Warp) (n : Nat) : (w.advance n).passPc = w.passPc := rfl
@[simp] theorem Warp.advance_slotUse (w : Warp) (n : Nat) : (w.advance n).slotUse = w.slotUse := rfl
@[simp] theorem Warp.advance_forced (w : Warp) (n : Nat) : (w.advance n).forced = w.forced := rfl
@[simp] theorem Warp.advance_slipDue (w : Warp) (n : Nat) : (w.advance n).slipDue = w.slipDue := rfl
@[simp] theorem Warp.advance_stalled (w : Warp) (n : Nat) : (w.advance n).stalled = false := rfl

/-! ## Path.step -/

@[simp] theorem Path.step_pc (p : Path) (n : Nat) : (p.step n).pc = p.pc + n := rfl
@[simp] theorem Path.step_atHdr (p : Path) (n : Nat) : (p.step n).atHdr = decide (Hdr.endAddr p.hdr ≤ p.pc + n) := rfl
@[simp] theorem Path.step_hdr (p : Path) (n : Nat) : (p.step n).hdr = p.hdr := rfl
@[simp] theorem Path.step_lanes (p : Path) (n : Nat) : (p.step n).lanes = p.lanes := rfl
@[simp] theorem Path.step_exec (p : Path) (n : Nat) : (p.step n).exec = p.exec := rfl
@[simp] theorem Path.step_age (p : Path) (n : Nat) : (p.step n).age = p.age := rfl
@[simp] theorem Path.step_issued (p : Path) (n : Nat) : (p.step n).issued = p.issued := rfl
@[simp] theorem Path.step_tags (p : Path) (n : Nat) : (p.step n).tags = p.tags := rfl
@[simp] theorem Path.step_arrived (p : Path) (n : Nat) : (p.step n).arrived = p.arrived := rfl
@[simp] theorem Path.step_hold (p : Path) (n : Nat) : (p.step n).hold = p.hold := rfl
@[simp] theorem Path.step_chk (p : Path) (n : Nat) : (p.step n).chk = p.chk := rfl
@[simp] theorem Path.step_stage (p : Path) (n : Nat) : (p.step n).stage = p.stage := rfl
@[simp] theorem Path.step_inH (p : Path) (n : Nat) : (p.step n).inH = p.inH := rfl
@[simp] theorem Path.step_past (p : Path) (n : Nat) : (p.step n).past = p.past := rfl
@[simp] theorem Path.step_settled (p : Path) (n : Nat) : (p.step n).settled = p.settled := rfl

/-! ## Warp.clearRes -/

@[simp] theorem Warp.clearRes_real (w : Warp) : w.clearRes.real = w.real := rfl
@[simp] theorem Warp.clearRes_core (w : Warp) : w.clearRes.core = w.core := rfl
@[simp] theorem Warp.clearRes_idx (w : Warp) : w.clearRes.idx = w.idx := rfl
@[simp] theorem Warp.clearRes_life (w : Warp) : w.clearRes.life = w.life := rfl
@[simp] theorem Warp.clearRes_id (w : Warp) : w.clearRes.id = w.id := rfl
@[simp] theorem Warp.clearRes_vregs (w : Warp) : w.clearRes.vregs = w.vregs := rfl
@[simp] theorem Warp.clearRes_sregs (w : Warp) : w.clearRes.sregs = w.sregs := rfl
@[simp] theorem Warp.clearRes_masks (w : Warp) : w.clearRes.masks = w.masks := rfl
@[simp] theorem Warp.clearRes_brk (w : Warp) : w.clearRes.brk = w.brk := rfl
@[simp] theorem Warp.clearRes_sds (w : Warp) : w.clearRes.sds = w.sds := rfl
@[simp] theorem Warp.clearRes_resV (w : Warp) : w.clearRes.resV = w.resV := rfl
@[simp] theorem Warp.clearRes_resS (w : Warp) : w.clearRes.resS = w.resS := rfl
@[simp] theorem Warp.clearRes_owed (w : Warp) : w.clearRes.owed = w.owed := rfl
@[simp] theorem Warp.clearRes_ops (w : Warp) : w.clearRes.ops = w.ops := rfl
@[simp] theorem Warp.clearRes_opNext (w : Warp) : w.clearRes.opNext = w.opNext := rfl
@[simp] theorem Warp.clearRes_lctb (w : Warp) : w.clearRes.lctb = w.lctb := rfl
@[simp] theorem Warp.clearRes_lctg (w : Warp) : w.clearRes.lctg = w.lctg := rfl
@[simp] theorem Warp.clearRes_lctd (w : Warp) : w.clearRes.lctd = w.lctd := rfl
@[simp] theorem Warp.clearRes_fsucc (w : Warp) : w.clearRes.fsucc = w.fsucc := rfl
@[simp] theorem Warp.clearRes_fsuccOld (w : Warp) : w.clearRes.fsuccOld = w.fsuccOld := rfl
@[simp] theorem Warp.clearRes_slipw (w : Warp) : w.clearRes.slipw = w.slipw := rfl
@[simp] theorem Warp.clearRes_tenure (w : Warp) : w.clearRes.tenure = w.tenure := rfl
@[simp] theorem Warp.clearRes_inboxFull (w : Warp) : w.clearRes.inboxFull = w.inboxFull := rfl
@[simp] theorem Warp.clearRes_inboxFrom (w : Warp) : w.clearRes.inboxFrom = w.inboxFrom := rfl
@[simp] theorem Warp.clearRes_baton (w : Warp) : w.clearRes.baton = w.baton := rfl
@[simp] theorem Warp.clearRes_rmode (w : Warp) : w.clearRes.rmode = w.rmode := rfl
@[simp] theorem Warp.clearRes_trapen (w : Warp) : w.clearRes.trapen = w.trapen := rfl
@[simp] theorem Warp.clearRes_fpstat (w : Warp) : w.clearRes.fpstat = w.fpstat := rfl
@[simp] theorem Warp.clearRes_exh (w : Warp) : w.clearRes.exh = w.exh := rfl
@[simp] theorem Warp.clearRes_voidrd (w : Warp) : w.clearRes.voidrd = w.voidrd := rfl
@[simp] theorem Warp.clearRes_invValid (w : Warp) : w.clearRes.invValid = w.invValid := rfl
@[simp] theorem Warp.clearRes_invIter (w : Warp) : w.clearRes.invIter = w.invIter := rfl
@[simp] theorem Warp.clearRes_pid (w : Warp) : w.clearRes.pid = w.pid := rfl
@[simp] theorem Warp.clearRes_p (w : Warp) : w.clearRes.p = w.p := rfl
@[simp] theorem Warp.clearRes_paths (w : Warp) : w.clearRes.paths = w.paths := rfl
@[simp] theorem Warp.clearRes_ldr (w : Warp) : w.clearRes.ldr = none := rfl
@[simp] theorem Warp.clearRes_ldrLost (w : Warp) : w.clearRes.ldrLost = w.ldrLost := rfl
@[simp] theorem Warp.clearRes_win (w : Warp) : w.clearRes.win = w.win := rfl
@[simp] theorem Warp.clearRes_disp (w : Warp) : w.clearRes.disp = w.disp := rfl
@[simp] theorem Warp.clearRes_lastSite (w : Warp) : w.clearRes.lastSite = w.lastSite := rfl
@[simp] theorem Warp.clearRes_keptSite (w : Warp) : w.clearRes.keptSite = w.keptSite := rfl
@[simp] theorem Warp.clearRes_keptEntry (w : Warp) : w.clearRes.keptEntry = w.keptEntry := rfl
@[simp] theorem Warp.clearRes_inv (w : Warp) : w.clearRes.inv = w.inv := rfl
@[simp] theorem Warp.clearRes_idle (w : Warp) : w.clearRes.idle = w.idle := rfl
@[simp] theorem Warp.clearRes_slips (w : Warp) : w.clearRes.slips = w.slips := rfl
@[simp] theorem Warp.clearRes_age (w : Warp) : w.clearRes.age = w.age := rfl
@[simp] theorem Warp.clearRes_wait (w : Warp) : w.clearRes.wait = w.wait := rfl
@[simp] theorem Warp.clearRes_park (w : Warp) : w.clearRes.park = w.park := rfl
@[simp] theorem Warp.clearRes_parkT (w : Warp) : w.clearRes.parkT = w.parkT := rfl
@[simp] theorem Warp.clearRes_wasParked (w : Warp) : w.clearRes.wasParked = w.wasParked := rfl
@[simp] theorem Warp.clearRes_parks (w : Warp) : w.clearRes.parks = w.parks := rfl
@[simp] theorem Warp.clearRes_arrive (w : Warp) : w.clearRes.arrive = w.arrive := rfl
@[simp] theorem Warp.clearRes_pendSync (w : Warp) : w.clearRes.pendSync = w.pendSync := rfl
@[simp] theorem Warp.clearRes_halted (w : Warp) : w.clearRes.halted = w.halted := rfl
@[simp] theorem Warp.clearRes_haltReq (w : Warp) : w.clearRes.haltReq = w.haltReq := rfl
@[simp] theorem Warp.clearRes_perched (w : Warp) : w.clearRes.perched = w.perched := rfl
@[simp] theorem Warp.clearRes_perchReq (w : Warp) : w.clearRes.perchReq = w.perchReq := rfl
@[simp] theorem Warp.clearRes_brkArg (w : Warp) : w.clearRes.brkArg = w.brkArg := rfl
@[simp] theorem Warp.clearRes_heldAll (w : Warp) : w.clearRes.heldAll = w.heldAll := rfl
@[simp] theorem Warp.clearRes_lastPc (w : Warp) : w.clearRes.lastPc = w.lastPc := rfl
@[simp] theorem Warp.clearRes_stopReq (w : Warp) : w.clearRes.stopReq = w.stopReq := rfl
@[simp] theorem Warp.clearRes_stopped (w : Warp) : w.clearRes.stopped = w.stopped := rfl
@[simp] theorem Warp.clearRes_entry (w : Warp) : w.clearRes.entry = w.entry := rfl
@[simp] theorem Warp.clearRes_smode (w : Warp) : w.clearRes.smode = w.smode := rfl
@[simp] theorem Warp.clearRes_active (w : Warp) : w.clearRes.active = w.active := rfl
@[simp] theorem Warp.clearRes_ppm (w : Warp) : w.clearRes.ppm = w.ppm := rfl
@[simp] theorem Warp.clearRes_tcode (w : Warp) : w.clearRes.tcode = w.tcode := rfl
@[simp] theorem Warp.clearRes_tsub (w : Warp) : w.clearRes.tsub = w.tsub := rfl
@[simp] theorem Warp.clearRes_taddr (w : Warp) : w.clearRes.taddr = w.taddr := rfl
@[simp] theorem Warp.clearRes_tmask (w : Warp) : w.clearRes.tmask = w.tmask := rfl
@[simp] theorem Warp.clearRes_tpc (w : Warp) : w.clearRes.tpc = w.tpc := rfl
@[simp] theorem Warp.clearRes_shadow (w : Warp) : w.clearRes.shadow = w.shadow := rfl
@[simp] theorem Warp.clearRes_trapV (w : Warp) : w.clearRes.trapV = w.trapV := rfl
@[simp] theorem Warp.clearRes_trapS (w : Warp) : w.clearRes.trapS = w.trapS := rfl
@[simp] theorem Warp.clearRes_busy (w : Warp) : w.clearRes.busy = w.busy := rfl
@[simp] theorem Warp.clearRes_passHold (w : Warp) : w.clearRes.passHold = w.passHold := rfl
@[simp] theorem Warp.clearRes_passPc (w : Warp) : w.clearRes.passPc = w.passPc := rfl
@[simp] theorem Warp.clearRes_slotUse (w : Warp) : w.clearRes.slotUse = w.slotUse := rfl
@[simp] theorem Warp.clearRes_forced (w : Warp) : w.clearRes.forced = w.forced := rfl
@[simp] theorem Warp.clearRes_slipDue (w : Warp) : w.clearRes.slipDue = w.slipDue := rfl
@[simp] theorem Warp.clearRes_stalled (w : Warp) : w.clearRes.stalled = w.stalled := rfl

end Sys2Proof.Machine
end

