-- ==== Sys2Proof/Laws/Store.lean ====
section
/-! SUPPORT. Laws of byte stores and maps: a read after a write, what a write leaves alone, and that every operation keeps the canonical form. -/
namespace Sys2Proof.Machine

/-! ## Byte stores -/

@[simp] theorem Memory.get_nil (a : Nat) : Memory.get [] a = 0 := rfl

theorem Memory.get_cons (x : Nat) (b : Byte) (m : Memory) (a : Nat) :
    Memory.get ((x, b) :: m) a = if x = a then b else Memory.get m a := rfl

/-- An address below every listed one reads as zero. -/
theorem Memory.get_below (m : Memory) (a : Nat) (h : ∀ p ∈ m, a < p.1) : Memory.get m a = 0 := by
  induction m with
  | nil => rfl
  | cons p m ih =>
    rcases p with ⟨x, b⟩
    have hx : a < x := h (x, b) (by simp)
    rw [Memory.get_cons, if_neg (by omega)]
    exact ih fun q hq => h q (by simp [hq])

/-- In a canonical store the address of the first entry is not listed again. -/
theorem Memory.wf_tail {p : Nat × Byte} {m : Memory} (h : Memory.wf (p :: m)) : Memory.wf m :=
  ⟨(List.pairwise_cons.1 h.1).2, fun q hq => h.2 q (by simp [hq])⟩

theorem Memory.wf_head {p : Nat × Byte} {m : Memory} (h : Memory.wf (p :: m)) : ∀ q ∈ m, p.1 < q.1 :=
  (List.pairwise_cons.1 h.1).1

theorem Memory.wf_nil : Memory.wf [] := ⟨List.Pairwise.nil, by simp⟩

/-- Keys of a store after a write: those before, and the address written. -/
theorem Memory.mem_set {m : Memory} {a : Nat} {b : Byte} {p : Nat × Byte} (h : p ∈ Memory.set m a b) : p ∈ m ∨ (p = (a, b) ∧ b ≠ 0) := by
  induction m with
  | nil =>
    simp only [Memory.set] at h
    split at h
    · simp at h
    · simp_all
  | cons q m ih =>
    rcases q with ⟨x, y⟩
    simp only [Memory.set] at h
    split at h
    · rcases List.mem_cons.1 h with h | h
      · exact .inl (by simp [h])
      · rcases ih h with h | h
        · exact .inl (by simp [h])
        · exact .inr h
    · split at h
      · split at h
        · exact .inl (by simp [h])
        · rcases List.mem_cons.1 h with h | h
          · exact .inr ⟨h, ‹_›⟩
          · exact .inl (by simp [h])
      · split at h
        · exact .inl h
        · rcases List.mem_cons.1 h with h | h
          · exact .inr ⟨h, ‹_›⟩
          · exact .inl h

/-- A write keeps the canonical form. -/
theorem Memory.wf_set {m : Memory} (a : Nat) (b : Byte) (h : Memory.wf m) : Memory.wf (Memory.set m a b) := by
  induction m with
  | nil =>
    simp only [Memory.set]
    split
    · exact h
    · exact ⟨by simp, by simpa using ‹_›⟩
  | cons q m ih =>
    rcases q with ⟨x, y⟩
    have hm := Memory.wf_tail h
    have hh := Memory.wf_head h
    have hy : y ≠ 0 := h.2 (x, y) (by simp)
    simp only [Memory.set]
    split
    · rename_i hlt
      refine ⟨List.pairwise_cons.2 ⟨fun p hp => ?_, (ih hm).1⟩, fun p hp => ?_⟩
      · rcases Memory.mem_set hp with hp | ⟨rfl, _⟩
        · exact hh p hp
        · exact hlt
      · rcases List.mem_cons.1 hp with rfl | hp
        · exact hy
        · exact (ih hm).2 p hp
    · split
      · rename_i hx
        split
        · exact hm
        · refine ⟨List.pairwise_cons.2 ⟨fun p hp => hx ▸ hh p hp, hm.1⟩, fun p hp => ?_⟩
          rcases List.mem_cons.1 hp with rfl | hp
          · assumption
          · exact hm.2 p hp
      · split
        · exact h
        · refine ⟨List.pairwise_cons.2 ⟨fun p hp => ?_, h.1⟩, fun p hp => ?_⟩
          · rcases List.mem_cons.1 hp with rfl | hp
            · show a < x; omega
            · have h1 : x < p.1 := hh p hp
              show a < p.1
              omega
          · rcases List.mem_cons.1 hp with rfl | hp
            · assumption
            · exact h.2 p hp

/-- A read after a write to the same address gives the byte written. -/
theorem Memory.get_set_same {m : Memory} (a : Nat) (b : Byte) (h : Memory.wf m) : (Memory.set m a b).get a = b := by
  induction m with
  | nil =>
    simp only [Memory.set]
    split
    · simp_all
    · simp [Memory.get_cons]
  | cons q m ih =>
    rcases q with ⟨x, y⟩
    have hh := Memory.wf_head h
    simp only [Memory.set]
    split
    · rw [Memory.get_cons, if_neg (by omega), ih (Memory.wf_tail h)]
    · split
      · rename_i hx
        split
        · rename_i hb
          rw [hb]
          exact Memory.get_below m a fun p hp => by have := hh p hp; simp only at this; omega
        · simp [Memory.get_cons]
      · split
        · rename_i hb
          rw [hb]
          refine Memory.get_below _ a fun p hp => ?_
          rcases List.mem_cons.1 hp with rfl | hp
          · show a < x; omega
          · have h1 : x < p.1 := hh p hp
            omega
        · simp [Memory.get_cons]

/-- A write leaves every other address alone. -/
theorem Memory.get_set_other {m : Memory} {a c : Nat} (b : Byte) (hc : c ≠ a) : (Memory.set m a b).get c = m.get c := by
  induction m with
  | nil =>
    simp only [Memory.set]
    split
    · rfl
    · rw [Memory.get_cons, if_neg (by omega)]
  | cons q m ih =>
    rcases q with ⟨x, y⟩
    simp only [Memory.set]
    split
    · rw [Memory.get_cons, Memory.get_cons, ih]
    · split
      · split
        · rw [Memory.get_cons, if_neg (by omega)]
        · rw [Memory.get_cons, Memory.get_cons, if_neg (by omega), if_neg (by omega)]
      · split
        · rfl
        · rw [Memory.get_cons, if_neg (by omega)]

theorem Memory.wf_writeN {m : Memory} (h : Memory.wf m) (a n v : Nat) : Memory.wf (Memory.writeN m a n v) := by
  induction n generalizing m a v with
  | zero => exact h
  | succ n ih => exact ih (Memory.wf_set _ _ h) _ _

theorem Memory.wf_put {m : Memory} (h : Memory.wf m) (a : Nat) (bs : List Byte) : Memory.wf (Memory.put m a bs) := by
  induction bs generalizing m a with
  | nil => exact h
  | cons b bs ih => exact ih (Memory.wf_set _ _ h) _

theorem Memory.wf_filter {m : Memory} (h : Memory.wf m) (f : Nat × Byte → Bool) : Memory.wf (m.filter f) :=
  ⟨h.1.filter f, fun p hp => h.2 p (List.mem_filter.1 hp).1⟩

/-- Writing a list of cells one by one. -/
theorem Memory.wf_foldl_set {α : Type} {m : Memory} (h : Memory.wf m) (l : List α) (f : α → Nat) (g : α → Byte) :
    Memory.wf (l.foldl (fun (m : Memory) e => m.set (f e) (g e)) m) := by
  induction l generalizing m with
  | nil => exact h
  | cons e l ih => exact ih (Memory.wf_set _ _ h)

/-- Bytes outside a list written read as before, and the list reads back. -/
theorem Memory.get_put_out (m : Memory) (a c : Nat) (bs : List Byte) (h : c < a ∨ a + bs.length ≤ c) : (m.put a bs).get c = m.get c := by
  induction bs generalizing m a with
  | nil => rfl
  | cons b bs ih =>
    simp only [Memory.put, List.length_cons] at h ⊢
    rw [ih _ _ (by omega), Memory.get_set_other _ (by omega)]
theorem Memory.readN_put_below (m : Memory) (a c n : Nat) (bs : List Byte) (h : c + n ≤ a) : (m.put a bs).readN c n = m.readN c n := by
  induction n generalizing c with
  | zero => rfl
  | succ n ih => simp only [Memory.readN]; rw [Memory.get_put_out _ _ _ _ (by omega), ih _ (by omega)]
theorem Memory.bytes_put {m : Memory} (h : Memory.wf m) (a : Nat) (bs : List Byte) : (m.put a bs).bytes a bs.length = bs := by
  induction bs generalizing m a with
  | nil => rfl
  | cons b bs ih =>
    simp only [Memory.put, List.length_cons, Memory.bytes]
    rw [Memory.get_put_out _ _ _ _ (by omega), Memory.get_set_same _ _ h, ih (Memory.wf_set _ _ h)]
@[simp] theorem leBytes_length (n v : Nat) : (leBytes n v).length = n := by
  induction n generalizing v with
  | zero => rfl
  | succ n ih => simp [leBytes, ih]

/-- Bytes outside the n written read as before. -/
theorem Memory.get_writeN_out (m : Memory) (a n v c : Nat) (h : c < a ∨ a + n ≤ c) : (m.writeN a n v).get c = m.get c := by
  induction n generalizing m a v with
  | zero => rfl
  | succ n ih =>
    simp only [Memory.writeN]
    rw [ih _ _ _ (by omega), Memory.get_set_other _ (by omega)]

/-- Byte i of the n written (R4). -/
theorem Memory.get_writeN_in {m : Memory} (hm : Memory.wf m) (a n v i : Nat) (h : i < n) :
    (m.writeN a n v).get (a + i) = BitVec.ofNat 8 (v / 256 ^ i) := by
  induction n generalizing m a v i with
  | zero => omega
  | succ n ih =>
    simp only [Memory.writeN]
    cases i with
    | zero => rw [Memory.get_writeN_out _ _ _ _ _ (by omega)]; simpa using Memory.get_set_same a _ hm
    | succ i =>
      have := ih (Memory.wf_set a (BitVec.ofNat 8 v) hm) (a + 1) (v / 256) i (by omega)
      rw [show a + (i + 1) = a + 1 + i by omega, this, Nat.div_div_eq_div_mul, Nat.pow_succ', Nat.mul_comm]

/-- R4: reading n bytes gives back the value written in n bytes. -/
theorem Memory.readN_writeN {m : Memory} (hm : Memory.wf m) (a n v : Nat) : (m.writeN a n v).readN a n = v % 256 ^ n := by
  suffices h : ∀ k b (x : Memory), (∀ i < k, x.get (b + i) = BitVec.ofNat 8 (v / 256 ^ (n - k + i))) → k ≤ n →
      x.readN b k = v / 256 ^ (n - k) % 256 ^ k by
    have := h n a (m.writeN a n v) (fun i hi => by simpa using Memory.get_writeN_in hm a n v i hi) (Nat.le_refl _)
    simpa using this
  intro k
  induction k with
  | zero => intro b x _ _; simp [Memory.readN, Nat.mod_one]
  | succ k ih =>
    intro b x hx hk
    simp only [Memory.readN]
    have h0 := hx 0 (by omega)
    have h1 := ih (b + 1) x (fun i hi => by
      have := hx (i + 1) (by omega)
      rw [show b + 1 + i = b + (i + 1) by omega, this, show n - k + i = n - (k + 1) + (i + 1) by omega]) (by omega)
    rw [h1]
    simp only [Nat.add_zero] at h0
    rw [h0, BitVec.toNat_ofNat]
    have h2 : v / 256 ^ (n - k) = v / 256 ^ (n - (k + 1)) / 256 := by
      rw [Nat.div_div_eq_div_mul, ← Nat.pow_succ, show n - k = n - (k + 1) + 1 by omega]
    rw [h2, show 256 ^ (k + 1) = 256 * 256 ^ k by rw [Nat.pow_succ, Nat.mul_comm], Nat.mod_mul]

/-! ## Maps from numbers -/

@[simp] theorem SMap.get?_nil {α : Type} (k : Nat) : SMap.get? ([] : SMap α) k = none := rfl

theorem SMap.get?_cons {α : Type} (x : Nat) (v : α) (m : SMap α) (k : Nat) :
    SMap.get? ((x, v) :: m) k = if x = k then some v else SMap.get? m k := rfl

@[simp] theorem SMap.get?_put_same {α : Type} (m : SMap α) (k : Nat) (v : α) : (m.put k v).get? k = some v := by
  induction m with
  | nil => simp [SMap.put, SMap.get?_cons]
  | cons q m ih =>
    rcases q with ⟨x, y⟩
    simp only [SMap.put]
    split
    · rw [SMap.get?_cons, if_neg (by omega), ih]
    · split <;> simp [SMap.get?_cons]

theorem SMap.get?_put_other {α : Type} (m : SMap α) {k j : Nat} (v : α) (h : j ≠ k) : (m.put k v).get? j = m.get? j := by
  induction m with
  | nil => simp only [SMap.put, SMap.get?_cons, SMap.get?_nil]; rw [if_neg (by omega)]
  | cons q m ih =>
    rcases q with ⟨x, y⟩
    simp only [SMap.put]
    split
    · simp only [SMap.get?_cons, ih]
    · split
      · simp only [SMap.get?_cons]; rw [if_neg (by omega), if_neg (by omega)]
      · simp only [SMap.get?_cons]; rw [if_neg (by omega)]

@[simp] theorem SMap.getD_put_same {α : Type} (m : SMap α) (k : Nat) (v d : α) : (m.put k v).getD k d = v := by
  simp [SMap.getD]

theorem SMap.getD_put_other {α : Type} (m : SMap α) {k j : Nat} (v d : α) (h : j ≠ k) : (m.put k v).getD j d = m.getD j d := by
  simp [SMap.getD, SMap.get?_put_other m v h]

@[simp] theorem SMap.get?_modify_same {α : Type} (m : SMap α) (k : Nat) (f : α → α) : (m.modify k f).get? k = (m.get? k).map f := by
  simp only [SMap.modify]
  split <;> simp_all

theorem SMap.get?_modify_other {α : Type} (m : SMap α) {k j : Nat} (f : α → α) (h : j ≠ k) : (m.modify k f).get? j = m.get? j := by
  simp only [SMap.modify]
  split
  · exact SMap.get?_put_other m _ h
  · rfl

theorem SMap.get?_del_other {α : Type} (m : SMap α) {k j : Nat} (h : j ≠ k) : (m.del k).get? j = m.get? j := by
  induction m with
  | nil => rfl
  | cons q m ih =>
    rcases q with ⟨x, y⟩
    unfold SMap.del at ih ⊢
    rw [List.filter_cons]
    split
    · rw [SMap.get?_cons, SMap.get?_cons, ih]
    · rename_i hx
      have : x = k := by simpa using hx
      rw [ih, SMap.get?_cons, if_neg (by omega)]

theorem SMap.get?_below {α : Type} (m : SMap α) (k : Nat) (h : ∀ p ∈ m, k < p.1) : m.get? k = none := by
  induction m with
  | nil => rfl
  | cons q m ih =>
    rcases q with ⟨x, y⟩
    have hx : k < x := h (x, y) (by simp)
    rw [SMap.get?_cons, if_neg (by omega)]
    exact ih fun p hp => h p (by simp [hp])

theorem SMap.get?_del_same {α : Type} (m : SMap α) (k : Nat) : (m.del k).get? k = none := by
  induction m with
  | nil => rfl
  | cons q m ih =>
    rcases q with ⟨x, y⟩
    unfold SMap.del at ih ⊢
    rw [List.filter_cons]
    split
    · rename_i hx
      have : x ≠ k := by simpa using hx
      rw [SMap.get?_cons, if_neg this, ih]
    · exact ih

/-! ## Lists and masks -/

@[simp] theorem lanes_getD {α : Type} (W : Nat) (f : Nat → α) (L : Nat) (d : α) (h : L < W) : (lanes W f).getD L d = f L := by
  simp [lanes, h]

@[simp] theorem lanes_length {α : Type} (W : Nat) (f : Nat → α) : (lanes W f).length = W := by simp [lanes]

@[simp] theorem setAt_length {α : Type} (l : List α) (n : Nat) (v : α) : (setAt l n v).length = l.length := by
  induction l generalizing n with
  | nil => rfl
  | cons x l ih => cases n <;> simp [setAt, ih]

theorem putAt_getD_same {α : Type} (d : α) (l : List α) (n : Nat) (v : α) : (putAt d l n v).getD n d = v := by
  induction n generalizing l with
  | zero => cases l <;> rfl
  | succ n ih => cases l <;> simpa [putAt] using ih _

theorem putAt_getD_other {α : Type} (d : α) (l : List α) {n j : Nat} (v : α) (h : j ≠ n) : (putAt d l n v).getD j d = l.getD j d := by
  induction n generalizing l j with
  | zero =>
    obtain ⟨j, rfl⟩ : ∃ i, j = i + 1 := ⟨j - 1, by omega⟩
    cases l <;> simp [putAt]
  | succ n ih =>
    cases l with
    | nil => cases j with
      | zero => rfl
      | succ j => simpa [putAt] using ih [] (j := j) (by omega)
    | cons x l => cases j with
      | zero => rfl
      | succ j => simpa [putAt] using ih l (j := j) (by omega)

theorem setAt_getD_other {α : Type} (l : List α) {n j : Nat} (v d : α) (h : j ≠ n) : (setAt l n v).getD j d = l.getD j d := by
  induction l generalizing n j with
  | nil => rfl
  | cons x l ih =>
    cases n with
    | zero => cases j with
      | zero => omega
      | succ j => simp [setAt]
    | succ n => cases j with
      | zero => simp [setAt]
      | succ j => simpa [setAt] using ih (n := n) (j := j) (by omega)

end Sys2Proof.Machine
end

