-- ==== Sys2Proof/Laws/Regs.lean ====
section
/-! SUPPORT. Laws of the register operations: reads after writes, frees, and what they leave alone (spec/03 R54 to R65). -/
namespace Sys2Proof.Machine

/-! ## Scalars -/

/-- R55. -/
@[simp] theorem Warp.rdS_zero (w : Warp) : w.rdS 0 = 0 := rfl

/-- R55: a write to s0 is discarded. -/
@[simp] theorem Warp.wrS_zero (w : Warp) (v : Word) : w.wrS 0 v = w := rfl

theorem Warp.rdS_wrS_same (w : Warp) (r : SIdx) (v : Word) (h : r ≠ 0) : (w.wrS r v).rdS r = v := by
  simp only [Warp.rdS, Warp.wrS, if_neg h, SMap.get?_put_same]

theorem Warp.rdS_wrS_other (w : Warp) (d r : SIdx) (v : Word) (h : r ≠ d) : (w.wrS d v).rdS r = w.rdS r := by
  have hn : r.toNat ≠ d.toNat := fun e => h (BitVec.eq_of_toNat_eq e)
  by_cases h0 : r = 0
  · simp only [Warp.rdS, if_pos h0]
  · by_cases hd : d = 0
    · simp only [Warp.wrS, if_pos hd]
    · simp only [Warp.rdS, Warp.wrS, if_neg h0, if_neg hd, SMap.get?_put_other _ _ hn]

/-- A read after a write of a scalar. -/
theorem Warp.rdS_wrS (w : Warp) (d r : SIdx) (v : Word) :
    (w.wrS d v).rdS r = if r = d then (if d = 0 then 0 else v) else w.rdS r := by
  split
  · subst r
    split
    · rename_i h
      subst h
      rfl
    · exact Warp.rdS_wrS_same w d v ‹_›
  · exact Warp.rdS_wrS_other w d r v ‹_›

theorem Warp.rdS_freeS_other (w : Warp) (d r : SIdx) (h : r ≠ d) : (w.freeS d).rdS r = w.rdS r := by
  have hn : r.toNat ≠ d.toNat := fun e => h (BitVec.eq_of_toNat_eq e)
  simp only [Warp.freeS]
  split
  · rfl
  · split
    · rfl
    · simp only [Warp.rdS, SMap.get?_del_other _ hn]

/-- A write of a scalar changes the scalar registers, and what older operations have still to write. -/
theorem Warp.wrS_frame (w : Warp) (d : SIdx) (v : Word) :
    w.wrS d v = { w with sregs := (w.wrS d v).sregs, ops := (w.wrS d v).ops } := by
  simp only [Warp.wrS]
  split <;> rfl
/-- Where none is to write the register, the operations stay (log 7). -/
theorem Warp.wrS_ops (w : Warp) (d : SIdx) (v : Word) (h : w.pendingS d = false) : (w.wrS d v).ops = w.ops := by
  simp only [Warp.wrS, Warp.opsS, h]
  split <;> rfl
theorem Warp.wrV_ops (w : Warp) (d : VIdx) (m : Word) (f : Nat → Lane) (h : w.pendingV d = false) : (w.wrV d m f).ops = w.ops := by
  simp [Warp.wrV, Warp.opsV, h]
/-- A write of a vector register changes the vector registers, and what older operations have still to write. -/
theorem Warp.wrV_frame (w : Warp) (d : VIdx) (m : Word) (f : Nat → Lane) :
    w.wrV d m f = { w with vregs := (w.wrV d m f).vregs, ops := (w.wrV d m f).ops } := rfl

/-- A free of a scalar changes the scalar registers and the reservation. -/
theorem Warp.freeS_frame (w : Warp) (d : SIdx) :
    w.freeS d = { w with sregs := (w.freeS d).sregs, resS := (w.freeS d).resS } := by
  simp only [Warp.freeS]
  split
  · rfl
  · split <;> rfl

/-! ## Masks -/

/-- R5, R46, R215: a write to m0 stays within the lane set; a write to another mask within the width. -/
theorem Warp.rdM_wrM_same (w : Warp) (m : MIdx) (v : Word) :
    (w.wrM m v).rdM m = if m = 0 then v &&& allLanes w.W &&& w.p.lanes else v &&& allLanes w.W := by
  by_cases h : m = 0
  · simp only [Warp.rdM, Warp.wrM, if_pos h]
  · simp only [Warp.rdM, Warp.wrM, if_neg h]
    exact putAt_getD_same _ _ _ _

theorem Warp.rdM_wrM_other (w : Warp) (d m : MIdx) (v : Word) (h : m ≠ d) : (w.wrM d v).rdM m = w.rdM m := by
  by_cases hd : d = 0
  · have hm : m ≠ 0 := fun e => h (e.trans hd.symm)
    simp only [Warp.rdM, Warp.wrM, if_pos hd, if_neg hm]
  · by_cases hm : m = 0
    · simp only [Warp.rdM, Warp.wrM, if_neg hd, if_pos hm]
    · simp only [Warp.rdM, Warp.wrM, if_neg hd, if_neg hm]
      refine putAt_getD_other _ _ _ fun e => h (BitVec.eq_of_toNat_eq ?_)
      have h1 : m.toNat ≠ 0 := fun e => hm (BitVec.eq_of_toNat_eq (by simpa using e))
      have h2 : d.toNat ≠ 0 := fun e => hd (BitVec.eq_of_toNat_eq (by simpa using e))
      omega

/-- A write of a mask changes the masks, or exec if it is m0. -/
theorem Warp.wrM_frame (w : Warp) (m : MIdx) (v : Word) :
    w.wrM m v = { w with masks := (w.wrM m v).masks, p := { w.p with exec := (w.wrM m v).p.exec } } := by
  simp only [Warp.wrM]
  split <;> rfl

/-! ## Vector registers -/

/-- What a vector source reads depends on: the descriptors, the staged elements and the register's entry. -/
theorem Warp.lane_congr {w w' : Warp} {r : VIdx} (L : Nat) (hd : w'.sds = w.sds) (hs : w'.p.stage = w.p.stage)
    (hv : w'.vregs.get? r.toNat = w.vregs.get? r.toNat) : w'.lane r L = w.lane r L := by
  have hp : w'.portOf r = w.portOf r := by
    unfold Warp.portOf Warp.sd
    rw [hd]
  unfold Warp.lane
  rw [hp, hs, hv]

/-- R58: the active lanes of a register after a write, and the others. -/
theorem Warp.lane_wrV_same (w : Warp) (d : VIdx) (m : Word) (f : Nat → Lane) (L : Nat) (h : w.portOf d = none) (hL : L < w.W) :
    (w.wrV d m f).lane d L = if m.getLsbD L then f L else w.lane d L := by
  have hp : (w.wrV d m f).portOf d = none := h
  simp only [Warp.lane, h, hp]
  simp only [Warp.wrV, Warp.putV, SMap.get?_put_same, mergeV]
  rw [lanes_getD _ _ _ _ hL]
  split
  · rfl
  · cases w.vregs.get? d.toNat <;> rfl

theorem Warp.lane_wrV_other (w : Warp) (d r : VIdx) (m : Word) (f : Nat → Lane) (L : Nat) (h : r ≠ d) :
    (w.wrV d m f).lane r L = w.lane r L := by
  have hn : r.toNat ≠ d.toNat := fun e => h (BitVec.eq_of_toNat_eq e)
  exact Warp.lane_congr L rfl rfl (by simp only [Warp.wrV, Warp.putV, SMap.get?_put_other _ _ hn])

theorem Warp.lane_freeV_other (w : Warp) (d r : VIdx) (L : Nat) (h : r ≠ d) : (w.freeV d).lane r L = w.lane r L := by
  have hn : r.toNat ≠ d.toNat := fun e => h (BitVec.eq_of_toNat_eq e)
  simp only [Warp.freeV]
  split
  · rfl
  · split
    · rfl
    · exact Warp.lane_congr L rfl rfl (by simp only [SMap.get?_del_other _ hn])

/-- A free of a vector register changes the vector registers and the reservation. -/
theorem Warp.freeV_frame (w : Warp) (d : VIdx) :
    w.freeV d = { w with vregs := (w.freeV d).vregs, resV := (w.freeV d).resV } := by
  simp only [Warp.freeV]
  split
  · rfl
  · split <;> rfl

/-! ## Folds over operand lists -/

theorem Warp.rdS_free_list (l : List (SIdx × Bool)) (w : Warp) (r : SIdx) (h : ∀ x ∈ l, x.2 = true → x.1 ≠ r) :
    (l.foldl (fun w r => if r.2 then w.freeS r.1 else w) w).rdS r = w.rdS r := by
  induction l generalizing w with
  | nil => rfl
  | cons x l ih =>
    simp only [List.foldl_cons]
    rw [ih _ fun y hy => h y (by simp [hy])]
    split
    · exact Warp.rdS_freeS_other w x.1 r fun e => h x (by simp) ‹_› e.symm
    · rfl

theorem Warp.lane_free_list (l : List (VIdx × Bool)) (w : Warp) (r : VIdx) (L : Nat) (h : ∀ x ∈ l, x.2 = true → x.1 ≠ r) :
    (l.foldl (fun w r => if r.2 then w.freeV r.1 else w) w).lane r L = w.lane r L := by
  induction l generalizing w with
  | nil => rfl
  | cons x l ih =>
    simp only [List.foldl_cons]
    rw [ih _ fun y hy => h y (by simp [hy])]
    split
    · exact Warp.lane_freeV_other w x.1 r L fun e => h x (by simp) ‹_› e.symm
    · rfl

end Sys2Proof.Machine
end

