-- ==== Sys2Proof/Laws/Ops.lean ====
section
/-! SUPPORT. One lemma for each shared operation of issue: what it answers, and what it leaves alone. -/
namespace Sys2Proof.Machine

/-! ## Issue -/

/-- With the conditions for issue met, the effect is taken on the state with the sources freed. -/
theorem gate_issues (u : Use) (s : State) (k : State → State → Out) (h : Issues u s) :
    gate u s k = k s { s with w := freeUse s.w u } := by
  obtain ⟨h1, h2, h3, h4, h5, h6⟩ := h
  have hl : gateLast u s k = k s { s with w := freeUse s.w u } := by simp only [gateLast, h5, h6]; rfl
  unfold gate
  rw [h1, h2, h3]
  simp only [Bool.false_eq_true, if_false]
  by_cases hp : (readPorts s.w u).isEmpty = true
  · rw [if_pos hp, hl]
  · rw [if_neg hp]
    have h7 : s.w.p.stage.any Stage.arrived = true := by simpa [hp] using h4
    cases hst : s.w.p.stage with
    | none => rw [hst] at h7; simp at h7
    | some st =>
      have h8 : st.arrived = true := by rw [hst] at h7; simpa using h7
      simp only [h8, if_true, hl]

theorem gate_ready (u : Use) (s : State) (k : State → State → Out) (h : Ready u s) :
    gate u s k = k s { s with w := freeUse s.w u } := gate_issues u s k h.1

/-- Whatever the conditions, an instruction waits, traps, or takes its effect. -/
theorem gate_cases (u : Use) (s : State) (k : State → State → Out) :
    (∃ s' t, gate u s k = trap s' t) ∨ (∃ s' r, gate u s k = stall s' r) ∨ (∃ s', gate u s k = k s' { s' with w := freeUse s'.w u }) := by
  have hl : ∀ s', (∃ t, gateLast u s' k = trap s' t) ∨ gateLast u s' k = k s' { s' with w := freeUse s'.w u } := by
    intro s'
    unfold gateLast
    split
    · exact .inl ⟨_, rfl⟩
    · dsimp only
      split
      · exact .inl ⟨_, rfl⟩
      · exact .inr rfl
  have hl' : ∀ s', (∃ s'' t, gateLast u s' k = trap s'' t) ∨ (∃ s'' r, gateLast u s' k = stall s'' r) ∨
      (∃ s'', gateLast u s' k = k s'' { s'' with w := freeUse s''.w u }) := fun s' =>
    (hl s').elim (fun ⟨t, h⟩ => .inl ⟨s', t, h⟩) fun h => .inr (.inr ⟨s', h⟩)
  unfold gate
  split
  · exact .inl ⟨_, _, rfl⟩
  · split
    · exact .inr (.inl ⟨_, _, rfl⟩)
    · split
      · exact .inr (.inl ⟨_, _, rfl⟩)
      · split
        · exact hl' s
        · split
          · split
            · exact hl' s
            · exact .inr (.inl ⟨_, _, rfl⟩)
          · split
            · exact .inl ⟨_, _, rfl⟩
            · split
              · split
                · exact hl' _
                · exact .inr (.inl ⟨_, _, rfl⟩)
              · exact .inr (.inl ⟨_, _, rfl⟩)

/-! ## What charging and counting touch -/

/-- R368: a charge changes the energy of virtual devices and nothing else. -/
theorem charge_frame (s : State) (vd die c w n : Nat) : charge s vd die c w n = { s with vdevs := (charge s vd die c w n).vdevs } := by
  simp only [charge]
  split <;> rfl

theorem count_frame (s : State) (k : Nat) : s.count k = { s with vdevs := (s.count k).vdevs } := rfl

/-- An instruction has issued: the program counter is past it, energy and counts are charged, nothing else changes. -/
theorem finish_frame (s : State) (c n : Nat) :
    ∃ vd, finish s c n = .next { s with w := s.w.advance s.ilen, vdevs := vd, freeCtr := s.freeCtr + 1 } := by
  simp only [finish]
  rw [charge_frame]
  exact ⟨_, rfl⟩

/-- A vector instruction keeps its slot busy for its beats (R20). -/
theorem finishV_frame (s : State) (c : Nat) :
    ∃ vd, finishV s c = .next { s with w := { s.w with busy := beats s }.advance s.ilen, vdevs := vd, freeCtr := s.freeCtr + 1 } :=
  finish_frame { s with w := { s.w with busy := beats s } } c (beats s)

/-! ## Sources -/

/-- A warp with other registers, reservations and staged elements. -/
def Warp.withRegs (w : Warp) (v : SMap VReg) (r : SMap SReg) (rv rs : Nat) (st : Option Stage) : Warp :=
  { w with vregs := v, sregs := r, resV := rv, resS := rs, p := { w.p with stage := st } }

/-- Two warps that differ in registers, reservations and staged elements at most. -/
def Warp.SameButRegs (w w' : Warp) : Prop := ∃ v r rv rs st, w' = w.withRegs v r rv rs st

theorem Warp.SameButRegs.rfl' (w : Warp) : w.SameButRegs w := ⟨_, _, _, _, _, rfl⟩

theorem Warp.SameButRegs.trans {a b c : Warp} (h : a.SameButRegs b) (h' : b.SameButRegs c) : a.SameButRegs c := by
  obtain ⟨_, _, _, _, _, rfl⟩ := h
  obtain ⟨v, r, rv, rs, st, rfl⟩ := h'
  exact ⟨v, r, rv, rs, st, rfl⟩

theorem Warp.SameButRegs.eq {w w' : Warp} (h : w.SameButRegs w') :
    w' = { w with vregs := w'.vregs, sregs := w'.sregs, resV := w'.resV, resS := w'.resS, p := { w.p with stage := w'.p.stage } } := by
  obtain ⟨_, _, _, _, _, rfl⟩ := h
  rfl

theorem Warp.same_foldl {α : Type} (f : Warp → α → Warp) (hf : ∀ (w : Warp) a, w.SameButRegs (f w a)) (l : List α) (w : Warp) :
    w.SameButRegs (l.foldl f w) := by
  induction l generalizing w with
  | nil => exact .rfl' w
  | cons a l ih => exact (hf w a).trans (ih _)

theorem Warp.freeV_same (w : Warp) (d : VIdx) : w.SameButRegs (w.freeV d) :=
  ⟨_, w.sregs, _, w.resS, w.p.stage, Warp.freeV_frame w d⟩
theorem Warp.freeS_same (w : Warp) (d : SIdx) : w.SameButRegs (w.freeS d) :=
  ⟨w.vregs, _, w.resV, _, w.p.stage, Warp.freeS_frame w d⟩
theorem Warp.wrS_same (w : Warp) (d : SIdx) (v : Word) (h : w.pendingS d = false) : w.SameButRegs (w.wrS d v) :=
  ⟨w.vregs, _, w.resV, w.resS, w.p.stage, by rw [Warp.wrS_frame, Warp.wrS_ops w d v h]; rfl⟩
theorem Warp.wrV_same (w : Warp) (d : VIdx) (m : Word) (f : Nat → Lane) (h : w.pendingV d = false) : w.SameButRegs (w.wrV d m f) :=
  ⟨_, w.sregs, w.resV, w.resS, w.p.stage, by rw [Warp.wrV_frame, Warp.wrV_ops w d m f h]; rfl⟩

theorem Warp.refillVs_same (w : Warp) (l : List (VIdx × Bool)) : w.SameButRegs (w.refillVs l) := by
  unfold Warp.refillVs
  split
  · exact Warp.same_foldl _ (fun w _ => ⟨_, w.sregs, w.resV, w.resS, w.p.stage, rfl⟩) _ _
  · exact .rfl' w
theorem Warp.refillSs_same (w : Warp) (l : List (SIdx × Bool)) : w.SameButRegs (w.refillSs l) := by
  unfold Warp.refillSs
  split
  · exact Warp.same_foldl _ (fun w _ => ⟨w.vregs, _, w.resV, w.resS, w.p.stage, rfl⟩) _ _
  · exact .rfl' w
theorem Warp.freeVs_same (w : Warp) (l : List (VIdx × Bool)) : w.SameButRegs (w.freeVs l) :=
  Warp.same_foldl _ (fun w r => by
    split
    · exact Warp.freeV_same w r.1
    · exact .rfl' w) l w
theorem Warp.freeSs_same (w : Warp) (l : List (SIdx × Bool)) : w.SameButRegs (w.freeSs l) :=
  Warp.same_foldl _ (fun w r => by
    split
    · exact Warp.freeS_same w r.1
    · exact .rfl' w) l w

/-- What issue does to the acting warp: registers, reservation and the staged elements; the rest stays. -/
theorem freeUse_same (w : Warp) (u : Use) : w.SameButRegs (freeUse w u) := by
  have h := (((Warp.refillVs_same w u.vsrc).trans (Warp.refillSs_same _ u.ssrc)).trans (Warp.freeVs_same _ u.vsrc)).trans
    (Warp.freeSs_same _ u.ssrc)
  unfold freeUse
  dsimp only
  split
  · exact h
  · exact h.trans ⟨_, _, _, _, none, rfl⟩

theorem Warp.lane_refillV (w : Warp) (d r : VIdx) (L : Nat) : (w.refillV d).lane r L = w.lane r L := by
  have hp : (w.refillV d).portOf r = w.portOf r := rfl
  unfold Warp.lane
  rw [hp]
  split
  · rfl
  · simp only [Warp.refillV]
    by_cases h : r.toNat = d.toNat
    · rw [h, SMap.get?_modify_same]
      cases w.vregs.get? d.toNat <;> rfl
    · rw [SMap.get?_modify_other _ _ h]

theorem Warp.rdS_refillS (w : Warp) (d r : SIdx) : (w.refillS d).rdS r = w.rdS r := by
  unfold Warp.rdS
  split
  · rfl
  · simp only [Warp.refillS]
    by_cases h : r.toNat = d.toNat
    · rw [h, SMap.get?_modify_same]
      cases w.sregs.get? d.toNat <;> rfl
    · rw [SMap.get?_modify_other _ _ h]

theorem Warp.foldl_keep {α β : Type} (g : Warp → β) (f : Warp → α → Warp) (hf : ∀ w a, g (f w a) = g w) (l : List α) (w : Warp) :
    g (l.foldl f w) = g w := by
  induction l generalizing w with
  | nil => rfl
  | cons a l ih => rw [List.foldl_cons, ih, hf]

/-- R57: a scalar that is no last-use source keeps its value at issue. -/
theorem rdS_freeUse (w : Warp) (u : Use) (r : SIdx) (h : ∀ x ∈ u.ssrc, x.2 = true → x.1 ≠ r) : (freeUse w u).rdS r = w.rdS r := by
  have e1 : (w.refillVs u.vsrc).rdS r = w.rdS r := by
    unfold Warp.refillVs
    split
    · exact Warp.foldl_keep (fun w => w.rdS r) (fun w (x : VIdx × Bool) => w.refillV x.1) (fun _ _ => rfl) _ _
    · rfl
  have e2 : ∀ w : Warp, (w.refillSs u.ssrc).rdS r = w.rdS r := fun w => by
    unfold Warp.refillSs
    split
    · exact Warp.foldl_keep (fun w => w.rdS r) (fun w (x : SIdx × Bool) => w.refillS x.1) (fun w a => Warp.rdS_refillS w a.1 r) _ _
    · rfl
  have e3 : ∀ w : Warp, (w.freeVs u.vsrc).rdS r = w.rdS r := fun w =>
    Warp.foldl_keep (fun w => w.rdS r) (fun w (x : VIdx × Bool) => if x.2 then w.freeV x.1 else w) (fun w a => by
      split
      · rw [Warp.freeV_frame]; rfl
      · rfl) _ _
  have e4 : ∀ w : Warp, (w.freeSs u.ssrc).rdS r = w.rdS r := fun w => Warp.rdS_free_list u.ssrc w r h
  have e : ((((w.refillVs u.vsrc).refillSs u.ssrc).freeVs u.vsrc).freeSs u.ssrc).rdS r = w.rdS r := by rw [e4, e3, e2, e1]
  unfold freeUse
  dsimp only
  split
  · exact e
  · exact e

/-- R57: a vector register that is no last-use source and no port keeps its lanes at issue. -/
theorem lane_freeUse (w : Warp) (u : Use) (r : VIdx) (L : Nat) (hp : w.portOf r = none) (h : ∀ x ∈ u.vsrc, x.2 = true → x.1 ≠ r) :
    (freeUse w u).lane r L = w.lane r L := by
  have e1 : (w.refillVs u.vsrc).lane r L = w.lane r L := by
    unfold Warp.refillVs
    split
    · exact Warp.foldl_keep (fun w => w.lane r L) (fun w (x : VIdx × Bool) => w.refillV x.1) (fun w a => Warp.lane_refillV w a.1 r L) _ _
    · rfl
  have e2 : ∀ w : Warp, (w.refillSs u.ssrc).lane r L = w.lane r L := fun w => by
    unfold Warp.refillSs
    split
    · exact Warp.foldl_keep (fun w => w.lane r L) (fun w (x : SIdx × Bool) => w.refillS x.1) (fun _ _ => rfl) _ _
    · rfl
  have e3 : ∀ w : Warp, (w.freeVs u.vsrc).lane r L = w.lane r L := fun w => Warp.lane_free_list u.vsrc w r L h
  have e4 : ∀ w : Warp, (w.freeSs u.ssrc).lane r L = w.lane r L := fun w =>
    Warp.foldl_keep (fun w => w.lane r L) (fun w (x : SIdx × Bool) => if x.2 then w.freeS x.1 else w) (fun w a => by
      split
      · rw [Warp.freeS_frame]; rfl
      · rfl) _ _
  have e : ((((w.refillVs u.vsrc).refillSs u.ssrc).freeVs u.vsrc).freeSs u.ssrc).lane r L = w.lane r L := by rw [e4, e3, e2, e1]
  have hq : (freeUse w u).portOf r = none := by
    rw [(freeUse_same w u).eq]
    exact hp
  unfold freeUse at *
  dsimp only at *
  split
  · exact e
  · rw [← e]
    rename_i hn
    rw [if_neg hn] at hq
    have hx : (Warp.freeSs (Warp.freeVs (Warp.refillSs (Warp.refillVs w u.vsrc) u.ssrc) u.vsrc) u.ssrc).portOf r = none := hq
    unfold Warp.lane
    rw [hq, hx]
    rfl

/-! ## Instructions of one shape -/

/-- A scalar instruction whose conditions are met: its result stands in its destination, and it has issued. -/
theorem sop_ready (ss : List (SIdx × Bool)) (d : SIdx) (f : Warp → Word) (s : State) (h : Ready { ssrc := ss, sdst := [d] } s) :
    ∃ vd, sop ss d f s = .next { s with
      w := ((freeUse s.w { ssrc := ss, sdst := [d] }).wrS d (f s.w)).advance s.ilen, vdevs := vd, freeCtr := s.freeCtr + 1 } := by
  rw [sop, gate_ready _ _ _ h]
  exact finish_frame _ _ _

/-- A mask instruction whose conditions are met. -/
theorem mop_ready (ss : List (SIdx × Bool)) (d : MIdx) (f : Warp → Word) (s : State) (h : Ready { ssrc := ss } s) :
    ∃ vd, mop ss d f s = .next { s with
      w := ((freeUse s.w { ssrc := ss }).wrM d (f s.w)).advance s.ilen, vdevs := vd, freeCtr := s.freeCtr + 1 } := by
  rw [mop, gate_ready _ _ _ h]
  exact finish_frame _ _ _

/-- A vector instruction whose conditions are met and whose destination is a register: written in its active lanes (R58), or not at
all where none is active (R47). -/
theorem vop_ready (c : Nat) (vs : List (VIdx × Bool)) (d : VIdx) (ms : MIdx) (f : Warp → Nat → Lane) (s : State)
    (h : Ready { vsrc := vs, vdst := [d], ms := ms } s) (hp : s.w.portOf d = none) :
    ∃ vd, vop c vs d ms f s = .next { s with
      w := { (if s.w.activeMask ms = 0 then freeUse s.w { vsrc := vs, vdst := [d], ms := ms }
              else (freeUse s.w { vsrc := vs, vdst := [d], ms := ms }).wrV d (s.w.activeMask ms) (f s.w)) with
        busy := beats s }.advance s.ilen,
      vdevs := vd, freeCtr := s.freeCtr + 1 } := by
  rw [vop, gate_ready _ _ _ h]
  simp only [vwrite, hp]
  have hb : ∀ w : Warp, w.id = s.w.id → beats { s with w := w } = beats s := fun w hw => by simp only [beats, State.W, hw]
  split
  · obtain ⟨vd, e⟩ := finishV_frame { s with w := freeUse s.w { vsrc := vs, vdst := [d], ms := ms } } c
    refine ⟨vd, e.trans ?_⟩
    rw [hb _ (by rw [(freeUse_same s.w { vsrc := vs, vdst := [d], ms := ms }).eq])]
  · obtain ⟨vd, e⟩ := finishV_frame { s with w := (freeUse s.w { vsrc := vs, vdst := [d], ms := ms }).wrV d (s.w.activeMask ms) (f s.w) } c
    refine ⟨vd, e.trans ?_⟩
    rw [hb _ (by
      show (freeUse s.w { vsrc := vs, vdst := [d], ms := ms }).id = _
      rw [(freeUse_same s.w { vsrc := vs, vdst := [d], ms := ms }).eq])]

end Sys2Proof.Machine
end

