-- ==== Sys2Proof/Tests/Slice0.lean ====
section
/-! SUPPORT. Tests: words of the spec's encodings and what they decode to, ill-formed terms, single steps with results worked out from the spec, and for each statement of Obligations.lean states and operands that meet its hypotheses. -/
namespace Sys2Proof.Tests
open Sys2Proof Sys2Proof.Machine
set_option Elab.async false

/-- The word decodes to the instruction. -/
def reads (e : Word × Instr) : Bool :=
  match decode e.1 with
  | .ok i => decide (i = e.2)
  | .error _ => false

/-- Words of spec/08 R178 to R187 and the entries: int vector. -/
def words_int_vector : List (Word × Instr) := [
  (0x0020203040018000, .vmul ⟨4, false⟩ 2 3 4 1),
  (0x0050203040018000, .vand ⟨4, false⟩ 2 3 4 1),
  (0x0060203040018000, .vor ⟨4, false⟩ 2 3 4 1),
  (0x0070203040018000, .vxor ⟨4, false⟩ 2 3 4 1),
  (0x0080203040018000, .vshl ⟨4, false⟩ 2 3 4 1),
  (0x0090203040018000, .vshr ⟨4, false⟩ 2 3 4 1),
  (0x00A0203040018000, .vsra ⟨4, false⟩ 2 3 4 1),
  (0x00B0203040018000, .vmin ⟨4, false⟩ 2 3 4 1),
  (0x00C0203040018000, .vmax ⟨4, false⟩ 2 3 4 1),
  (0x00D0203040018000, .vminn ⟨4, false⟩ 2 3 4 1),
  (0x00E0203040018000, .vmaxn ⟨4, false⟩ 2 3 4 1),
  (0x0000203060000000, .vadd ⟨0, false⟩ 2 3 6 0 .wrap),
  (0x000FFFEFD0000002, .vadd ⟨0, false⟩ 255 254 253 0 .satu),
  (0x00102030400F0001, .vsub ⟨0, false⟩ 2 3 4 15 .sat),
  (0x0030203040001001, .vmulh ⟨0, true⟩ 2 3 4 0 true),
  (0x0040203040512000, .vmad ⟨1, false⟩ 2 3 4 5 1),
  (0x00F0203000000001, .vabs ⟨0, false⟩ 2 3 0 true),
  (0x0100203000000000, .vneg ⟨0, false⟩ 2 3 0 false),
  (0x0110203000020000, .vclz ⟨0, false⟩ 2 3 2),
  (0x0120203000000000, .vpopc ⟨0, false⟩ 2 3 0),
  (0x0130503040000009, .vcmp ⟨0, false⟩ 5 3 4 0 .geu),
  (0x0140203040700000, .vsel ⟨0, false⟩ 2 3 4 7 0),
  (0x0150203000000000, .vmov ⟨0, false⟩ (.vv 2 3) 0),
  (0x0150103000000001, .vmov ⟨0, false⟩ (.bv 1 3) 0),
  (0x0150203000000002, .vmov ⟨0, false⟩ (.vb 2 3) 0),
  (0x0160900000010000, .vlane ⟨0, false⟩ 9 1),
  (0x02003021FFFF0FFB, .vaddi ⟨0, false⟩ 3 2 1 0xFFFFFFB),
  (0x0210302012340567, .vandi ⟨0, false⟩ 3 2 0 0x1234567),
  (0x0220302000000001, .vori ⟨0, false⟩ 3 2 0 1),
  (0x02303020FFFF0FFF, .vxori ⟨0, false⟩ 3 2 0 0xFFFFFFF),
  (0x024030200000001F, .vshli ⟨0, false⟩ 3 2 0 31),
  (0x0250302000000001, .vshri ⟨0, false⟩ 3 2 0 1),
  (0x0260302000000010, .vsrai ⟨0, false⟩ 3 2 0 16),
  (0x02703002FFF10000, .vmovi ⟨0, false⟩ 3 2 0xFFF1000),
  (0x028030206ABC0DEF, .vcmpi ⟨0, false⟩ 3 2 0 .ltu 0xABCDEF)]
theorem test_decode_int_vector : words_int_vector.all reads = true := by decide +kernel

/-- Words of spec/08 R178 to R187 and the entries: float vector. -/
def words_float_vector : List (Word × Instr) := [
  (0x0400203040010200, .fadd ⟨0, false⟩ 2 3 4 1 .rz),
  (0x0410203040010200, .fsub ⟨0, false⟩ 2 3 4 1 .rz),
  (0x0420203040010200, .fmul ⟨0, false⟩ 2 3 4 1 .rz),
  (0x04A0203040010200, .fdiv ⟨0, false⟩ 2 3 4 1 .rz),
  (0x0520203040010200, .fscale ⟨0, false⟩ 2 3 4 1 .rz),
  (0x0440203040010000, .fmin ⟨0, false⟩ 2 3 4 1),
  (0x0450203040010000, .fmax ⟨0, false⟩ 2 3 4 1),
  (0x0460203000010000, .fabs ⟨0, false⟩ 2 3 1),
  (0x0470203000010000, .fneg ⟨0, false⟩ 2 3 1),
  (0x0490203000010000, .fclass ⟨0, false⟩ 2 3 1),
  (0x04C0203000010000, .frcp ⟨0, false⟩ 2 3 1),
  (0x04D0203000010000, .frsq ⟨0, false⟩ 2 3 1),
  (0x04E0203000010000, .fexp2 ⟨0, false⟩ 2 3 1),
  (0x04F0203000010000, .flog2 ⟨0, false⟩ 2 3 1),
  (0x0500203000010000, .fsin ⟨0, false⟩ 2 3 1),
  (0x0510203000010000, .fcos ⟨0, false⟩ 2 3 1),
  (0x0530203000010000, .ftanh ⟨0, false⟩ 2 3 1),
  (0x0430203040500100, .ffma ⟨0, false⟩ 2 3 4 5 0 .rn),
  (0x0480203040000007, .fcmp ⟨0, false⟩ 2 3 4 0 .ord),
  (0x04B0203000000400, .fsqrt ⟨0, false⟩ 2 3 0 .rd),
  (0x0540203040500301, .hfma2 ⟨0, false⟩ 2 3 4 5 0 .ru true),
  (0x0550203040000000, .hadd2 ⟨0, false⟩ 2 3 4 0 .dflt false),
  (0x0560203040000001, .hmul2 ⟨0, false⟩ 2 3 4 0 .dflt true),
  (0x0570203040500000, .scacc ⟨0, false⟩ 2 (.v 3) (.v 4) (.v 5) 0),
  (0x05702030405000A7, .scacc ⟨0, false⟩ 2 (.tile 3 10) (.s 4) (.s 5) 0),
  (0x06002030040002B0, .cvt ⟨0, false⟩ 2 3 0 (.pi 4) .f32 .rz),
  (0x0600203000000073, .cvt ⟨0, false⟩ 2 3 0 .i32 .e4m3 .dflt),
  (0x0610203040000083, .pack ⟨0, false⟩ 2 3 4 0 .e4m3 true .dflt),
  (0x0620203000000038, .unpack ⟨0, false⟩ 2 3 0 .n8 3)]
theorem test_decode_float_vector : words_float_vector.all reads = true := by decide +kernel

/-- Words of spec/08 R178 to R187 and the entries: lanes and streams. -/
def words_lanes_and_streams : List (Word × Instr) := [
  (0x0700203040000011, .shfl ⟨0, false⟩ 2 3 4 0 .g2 .own),
  (0x0710203003F00000, .shflup ⟨0, false⟩ 2 3 63 0 .full .wrap),
  (0x072090800030000C, .shfldn ⟨0, false⟩ 9 8 3 0 .g16 .clamp),
  (0x0730203000100005, .shflx ⟨0, false⟩ 2 3 1 0 .g32 .wrap),
  (0x0740203000700002, .bcast ⟨0, false⟩ 2 3 (.imm 7) 0 .g4 .wrap),
  (0x0740203090000048, .bcast ⟨0, false⟩ 2 3 (.reg 9) 0 .full .clamp),
  (0x0750203000000003, .vredadd ⟨0, false⟩ 2 3 0 .g8),
  (0x0760203000000020, .vredmin ⟨0, false⟩ 2 3 0 .full true),
  (0x0770203000000000, .vredmax ⟨0, false⟩ 2 3 0 .full false),
  (0x0780203000000100, .fredadd ⟨0, false⟩ 2 3 0 .full .rn),
  (0x0790203000000006, .fredmin ⟨0, false⟩ 2 3 0 .g64),
  (0x07A0203000000000, .fredmax ⟨0, false⟩ 2 3 0 .full),
  (0x07B0203000000020, .vscan ⟨0, false⟩ 2 3 0 .full true),
  (0x07C0203000000201, .fscan ⟨0, false⟩ 2 3 0 .g2 false .rz),
  (0x0800209000010000, .vfroms ⟨0, false⟩ 2 9 1),
  (0x0810902000500080, .vtos ⟨0, false⟩ 9 2 (.imm 5) 0 true),
  (0x0810902080000040, .vtos ⟨0, false⟩ 9 2 (.reg 8) 0 false),
  (0x0820209000100000, .vins ⟨0, false⟩ 2 9 (.imm 1) 0),
  (0x0900701020300084, .sbind ⟨0, false⟩ 7 1 2 3 true 4),
  (0x0910700000000000, .sunbind ⟨0, false⟩ 7),
  (0x0920109000000001, .sseek ⟨0, false⟩ 1 9 true),
  (0x0930901000000003, .spos ⟨0, false⟩ 9 1 .str)]
theorem test_decode_lanes_and_streams : words_lanes_and_streams.all reads = true := by decide +kernel

/-- Words of spec/08 R178 to R187 and the entries: memory. -/
def words_memory : List (Word × Instr) := [
  (0x4000814038020FC0, .ld ⟨0, false⟩ 8 ⟨20, some 3, 0xFC0, false, .none, 2⟩ .w32),
  (0x4010814FFA900000, .st ⟨0, false⟩ 8 ⟨20, none, 0, true, .nt, 0⟩ .w64),
  (0x4020814FF2000FFF, .ldsc ⟨0, false⟩ 8 ⟨20, 0xFFF, false, .none⟩ .i8),
  (0x4030814FF4400000, .stsc ⟨0, false⟩ 8 ⟨20, 0, false, .na⟩ .n16),
  (0x4040014036C00000, .pref ⟨0, false⟩ ⟨20, some 3, 0, false, .ro, 0⟩ .i16),
  (0x410081403A000000, .atomAdd ⟨0, false⟩ 8 ⟨20, some 3, 0, false, .none, 0⟩ true),
  (0x411081403A000000, .atomSub ⟨0, false⟩ 8 ⟨20, some 3, 0, false, .none, 0⟩ true),
  (0x412081403A000000, .atomAnd ⟨0, false⟩ 8 ⟨20, some 3, 0, false, .none, 0⟩ true),
  (0x413081403A000000, .atomOr ⟨0, false⟩ 8 ⟨20, some 3, 0, false, .none, 0⟩ true),
  (0x414081403A000000, .atomXor ⟨0, false⟩ 8 ⟨20, some 3, 0, false, .none, 0⟩ true),
  (0x415081403A000000, .atomMin ⟨0, false⟩ 8 ⟨20, some 3, 0, false, .none, 0⟩ true),
  (0x416081403A000000, .atomMax ⟨0, false⟩ 8 ⟨20, some 3, 0, false, .none, 0⟩ true),
  (0x417081403A000000, .atomMinn ⟨0, false⟩ 8 ⟨20, some 3, 0, false, .none, 0⟩ true),
  (0x418081403A000000, .atomMaxn ⟨0, false⟩ 8 ⟨20, some 3, 0, false, .none, 0⟩ true),
  (0x419081403A000000, .atomXchg ⟨0, false⟩ 8 ⟨20, some 3, 0, false, .none, 0⟩ true),
  (0x41A081403A000000, .atomCas ⟨0, false⟩ 8 ⟨20, some 3, 0, false, .none, 0⟩ true),
  (0x4200814FF8110000, .redAdd ⟨0, false⟩ 8 ⟨20, none, 0, true, .none, 1⟩ false),
  (0x4210814FF8110000, .redSub ⟨0, false⟩ 8 ⟨20, none, 0, true, .none, 1⟩ false),
  (0x4220814FF8110000, .redAnd ⟨0, false⟩ 8 ⟨20, none, 0, true, .none, 1⟩ false),
  (0x4230814FF8110000, .redOr ⟨0, false⟩ 8 ⟨20, none, 0, true, .none, 1⟩ false),
  (0x4240814FF8110000, .redXor ⟨0, false⟩ 8 ⟨20, none, 0, true, .none, 1⟩ false),
  (0x4250814FF8110000, .redMin ⟨0, false⟩ 8 ⟨20, none, 0, true, .none, 1⟩ false),
  (0x4260814FF8110000, .redMax ⟨0, false⟩ 8 ⟨20, none, 0, true, .none, 1⟩ false),
  (0x4270814FF8110000, .redMinn ⟨0, false⟩ 8 ⟨20, none, 0, true, .none, 1⟩ false),
  (0x4280814FF8110000, .redMaxn ⟨0, false⟩ 8 ⟨20, none, 0, true, .none, 1⟩ false),
  (0x4200100FF8112000, .redAdd ⟨1, false⟩ 1 ⟨0, none, 0, true, .none, 1⟩ false),
  (0x4300814FF8000000, .fatomAdd ⟨0, false⟩ 8 ⟨20, none, 0, false, .none, 0⟩),
  (0x4380814FF8000000, .fredAdd ⟨0, false⟩ 8 ⟨20, none, 0, false, .none, 0⟩),
  (0x4310814FF8000000, .fatomMin ⟨0, false⟩ 8 ⟨20, none, 0, false, .none, 0⟩),
  (0x4390814FF8000000, .fredMin ⟨0, false⟩ 8 ⟨20, none, 0, false, .none, 0⟩),
  (0x4320814FF8000000, .fatomMax ⟨0, false⟩ 8 ⟨20, none, 0, false, .none, 0⟩),
  (0x43A0814FF8000000, .fredMax ⟨0, false⟩ 8 ⟨20, none, 0, false, .none, 0⟩),
  (0x4400814FFA000008, .ldres ⟨0, false⟩ 8 ⟨20, 8, false, .none⟩ true),
  (0x4410814FF8100000, .stcon ⟨0, false⟩ 8 ⟨20, 0, true, .none⟩ false)]
theorem test_decode_memory : words_memory.all reads = true := by decide +kernel

/-- Words of spec/08 R178 to R187 and the entries: sync. -/
def words_sync : List (Word × Instr) := [
  (0x4500000000800000, .fence ⟨0, false⟩ .g),
  (0x4600506FF0100010, .barinit ⟨0, false⟩ 5 6 16),
  (0x4610006FF0100000, .bararr ⟨0, false⟩ 6 0),
  (0x4620506FF0100000, .barexp ⟨0, false⟩ 5 6 0),
  (0x4630506FF0100000, .barwait ⟨0, false⟩ 5 6 0),
  (0x4640506FF2100000, .bartest ⟨0, false⟩ 5 6 0 true),
  (0x4700000000000000, .bsync ⟨0, false⟩),
  (0x4710000000000000, .gsync ⟨0, false⟩),
  (0x4720000000000000, .lsync ⟨0, false⟩),
  (0x4800506FF0000FF8, .publish ⟨0, false⟩ 5 6 0xFF8)]
theorem test_decode_sync : words_sync.all reads = true := by decide +kernel

/-- Words of spec/08 R178 to R187 and the entries: tiles. -/
def words_tiles : List (Word × Instr) := [
  (0x5000008000000000, .tdef ⟨0, false⟩ (.name 1) .w32),
  (0x5008038000034004, .tdef ⟨2, false⟩ (.reg 7) (.pi 4)),
  (0x5010000000910000, .tnew ⟨0, false⟩ 9 .w16),
  (0x50200280000001FF, .twrite ⟨0, false⟩ (.name 5) 31 15),
  (0x5037FF8000000000, .tseal ⟨0, false⟩ (.name 4095)),
  (0x504000401C0001F0, .tread ⟨0, false⟩ 31 (.reg 7) 0),
  (0x5050000014000000, .tkill ⟨0, false⟩ (.name 5)),
  (0x5060000014900000, .tstat ⟨0, false⟩ 9 (.name 5)),
  (0x5070000000A00088, .tload ⟨0, false⟩ (.name 0) 10 false (.plane 8 8)),
  (0x5070010003E10000, .tload ⟨0, false⟩ (.name 2) 62 true .row),
  (0x5080000008A00001, .tstore ⟨0, false⟩ (.name 2) 10 false true)]
theorem test_decode_tiles : words_tiles.all reads = true := by decide +kernel

/-- Words of spec/08 R178 to R187 and the entries: leases and engines. -/
def words_leases_and_engines : List (Word × Instr) := [
  (0x5100000000940000, .lease ⟨0, false⟩ 9 .mx true),
  (0x5110000000930000, .leaset ⟨0, false⟩ 9 .cl false),
  (0x5120000000900000, .vacate ⟨0, false⟩ 9),
  (0x513000000090007F, .lstat ⟨0, false⟩ 127 9),
  (0x520000001490037F, .mxloadb ⟨0, false⟩ 9 (.name 5) 15 7 .i16),
  (0x5210000008A00025, .mxrun ⟨0, false⟩ 10 (.name 2) 0 0 (.pi 4)),
  (0x52100000149F0104, .mxrun ⟨0, false⟩ 9 (.name 5) 15 2 .i8),
  (0x522002800098018F, .mxdrain ⟨0, false⟩ (.name 5) 9 7 3 true true),
  (0x5230000000900080, .mxzero ⟨0, false⟩ 9 1),
  (0x5240000000910080, .mxconv ⟨0, false⟩ 9 1 .e4m3 true),
  (0x5250000000900000, .cvshape ⟨0, false⟩ 9),
  (0x53000000009A0000, .dmcopy ⟨0, false⟩ 9 ⟨false, true, true⟩),
  (0x53100000009101F9, .dmgather ⟨0, false⟩ 9 31 9 ⟨true, false, false⟩),
  (0x53200000009001F0, .dmscatter ⟨0, false⟩ 9 31 0 ⟨false, false, false⟩),
  (0x5330000000920000, .dmfill ⟨0, false⟩ 9 true false),
  (0x5400000000990FF2, .clreduce ⟨0, false⟩ 9 255 .max .i32 true),
  (0x5410000000900070, .clgather ⟨0, false⟩ 9 7 false),
  (0x5420000000980070, .clbcast ⟨0, false⟩ 9 7 true)]
theorem test_decode_leases_and_engines : words_leases_and_engines.all reads = true := by decide +kernel

/-- Words of spec/08 R178 to R187 and the entries: control. -/
def words_control : List (Word × Instr) := [
  (0x8000000000000000, .nop ⟨0, false⟩),
  (0x8010506000000000, .pass ⟨0, false⟩ 5 6),
  (0x802050000000001F, .passi ⟨0, false⟩ 5 31),
  (0x80305067C0000000, .passx ⟨0, false⟩ 5 6 124 none),
  (0x803050608FF00001, .passx ⟨0, false⟩ 5 6 8 (some 255)),
  (0x8041E00000000000, .passf ⟨0, false⟩ 30),
  (0x8050006000000000, .setfs ⟨0, false⟩ 6),
  (0x8060000000000000, .exit ⟨0, false⟩),
  (0x8070006000000000, .exitp ⟨0, false⟩ 6),
  (0x8080500000000011, .csrrd ⟨0, false⟩ 5 0x011),
  (0x8090005000000031, .csrwr ⟨0, false⟩ 0x031 5),
  (0x8090005000000014, .inboxClear ⟨0, false⟩ 5),
  (0x8090005000000042, .invstateAbandon ⟨0, false⟩ 5),
  (0x80A0000000000041, .waitc ⟨0, false⟩ 1 1),
  (0x80B0500000000000, .gtime ⟨0, false⟩ 5),
  (0x80C00000000F0FFF, .trap ⟨0, false⟩ 0xFFFF),
  (0x80C0000000100000, .trapLazy ⟨0, false⟩),
  (0x80D0000000000003, .brk ⟨0, false⟩ 3),
  (0x8100000FFFFF0FFC, .br ⟨0, false⟩ 0xFFFFFFFC),
  (0x8110900000000028, .brz ⟨0, false⟩ 9 40),
  (0x8120900000000028, .brnz ⟨0, false⟩ 9 40),
  (0x8130300000000028, .brnone ⟨0, false⟩ 3 40),
  (0x8140300000120345, .brany ⟨0, false⟩ 3 0x12345),
  (0x8150300000000028, .brall ⟨0, false⟩ 3 40),
  (0x8160000000000028, .call ⟨0, false⟩ 40),
  (0x817FF07000000000, .calli ⟨0, false⟩ 255 7),
  (0x8180000000000000, .ret ⟨0, false⟩),
  (0x8190300000000028, .split ⟨0, false⟩ 3 40),
  (0x81A0000000000000, .join ⟨0, false⟩),
  (0x86014160A0C30A00, .inv ⟨0, false⟩ ⟨20, 22, 10, false, 12, 3, 40, false, false⟩)]
theorem test_decode_control : words_control.all reads = true := by decide +kernel

/-- Words of spec/08 R178 to R187 and the entries: scalar. -/
def words_scalar : List (Word × Instr) := [
  (0x8200506070004000, .sadd ⟨2, false⟩ 5 6 7),
  (0x8210506070004000, .ssub ⟨2, false⟩ 5 6 7),
  (0x8220506070004000, .smul ⟨2, false⟩ 5 6 7),
  (0x8260506070004000, .sand ⟨2, false⟩ 5 6 7),
  (0x8270506070004000, .sor ⟨2, false⟩ 5 6 7),
  (0x8280506070004000, .sxor ⟨2, false⟩ 5 6 7),
  (0x8290506070004000, .sshl ⟨2, false⟩ 5 6 7),
  (0x82A0506070004000, .sshr ⟨2, false⟩ 5 6 7),
  (0x82B0506070004000, .ssra ⟨2, false⟩ 5 6 7),
  (0x82C0506070004000, .smin ⟨2, false⟩ 5 6 7),
  (0x82D0506070004000, .smax ⟨2, false⟩ 5 6 7),
  (0x82E0506070004000, .sminn ⟨2, false⟩ 5 6 7),
  (0x82F0506070004000, .smaxn ⟨2, false⟩ 5 6 7),
  (0x8230506070000001, .smulh ⟨0, false⟩ 5 6 7 true),
  (0x8240506070000001, .sdiv ⟨0, false⟩ 5 6 7 true),
  (0x8250506070000001, .srem ⟨0, false⟩ 5 6 7 true),
  (0x8300506070000003, .scmp ⟨0, false⟩ 5 6 7 .le),
  (0x8310506070800000, .ssel ⟨0, false⟩ 5 6 7 8),
  (0x832057F000000000, .smov ⟨0, false⟩ 5 127),
  (0x8330506000000000, .sclz ⟨0, false⟩ 5 6),
  (0x8340506000000000, .spopc ⟨0, false⟩ 5 6),
  (0x8350506003F00088, .sbfx ⟨0, false⟩ 5 6 8 63 true),
  (0x8360506000700008, .sbfi ⟨0, false⟩ 5 6 8 7),
  (0x8400506FFFFF0FFF, .saddi ⟨0, false⟩ 5 6 0xFFFFFFFF),
  (0x8410506123450678, .sandi ⟨0, false⟩ 5 6 0x12345678),
  (0x8420506000000001, .sori ⟨0, false⟩ 5 6 1),
  (0x8430506000000001, .sxori ⟨0, false⟩ 5 6 1),
  (0x844050600000003F, .sshli ⟨0, false⟩ 5 6 63),
  (0x8450506000000001, .sshri ⟨0, false⟩ 5 6 1),
  (0x8460506000000001, .ssrai ⟨0, false⟩ 5 6 1),
  (0x8470500800000000, .smovi ⟨0, false⟩ 5 0x80000000),
  (0x8480500000000007, .shii ⟨0, false⟩ 5 7),
  (0x8490506200000005, .scmpi ⟨0, false⟩ 5 6 .lt 5),
  (0x85001020F0000000, .mand ⟨0, false⟩ 1 2 15),
  (0x85101020F0000000, .mor ⟨0, false⟩ 1 2 15),
  (0x85201020F0000000, .mxor ⟨0, false⟩ 1 2 15),
  (0x85301020F0000000, .mandn ⟨0, false⟩ 1 2 15),
  (0x8540102000000000, .mnot ⟨0, false⟩ 1 2),
  (0x8550002000000000, .mmov ⟨0, false⟩ 0 2),
  (0x8560502000000000, .mcnt ⟨0, false⟩ 5 2),
  (0x8570502000000000, .mfirst ⟨0, false⟩ 5 2),
  (0x8580105000000000, .mfroms ⟨0, false⟩ 1 5),
  (0x8590501000000000, .mtos ⟨0, false⟩ 5 1)]
theorem test_decode_scalar : words_scalar.all reads = true := by decide +kernel

/-- Words of spec/08 R178 to R187 and the entries: privileged. -/
def words_privileged : List (Word × Instr) := [
  (0x8800500000000102, .rdpr ⟨0, false⟩ 5 0x102),
  (0x8810004000000107, .wrpr ⟨0, false⟩ 0x107 4),
  (0x8810004000000122, .voteWrite ⟨0, false⟩ 4),
  (0x8820000000000000, .tret ⟨0, false⟩),
  (0x8830000000000000, .haltg ⟨0, false⟩),
  (0x8840000000000000, .resumeg ⟨0, false⟩),
  (0x8850506000000000, .shsave ⟨0, false⟩ 5 6),
  (0x8860506000000000, .shrest ⟨0, false⟩ 5 6),
  (0x8870006000000002, .tlbinv ⟨0, false⟩ .asid 6),
  (0x8880506000000000, .evict ⟨0, false⟩ 5 6),
  (0x8890006000000000, .ctrsel ⟨0, false⟩ 6),
  (0x88A0506070000000, .aszrec ⟨0, false⟩ 5 6 7),
  (0x88B0006000000000, .tabort ⟨0, false⟩ 6),
  (0x88C0506000000000, .warpctlStat ⟨0, false⟩ 5 6),
  (0x88C0506000000001, .warpctlKill ⟨0, false⟩ 5 6)]
theorem test_decode_privileged : words_privileged.all reads = true := by decide +kernel
/-! ## Small machines for the witnesses -/

/-- Four parcels at a code address, the first at the lowest address (R4). -/
def code (m : Memory) (a : Nat) (w : Word) : Memory :=
  let n := w.toNat
  (((m.writeN a 2 (n / 2 ^ 48)).writeN (a + 2) 2 (n / 2 ^ 32 % 2 ^ 16)).writeN (a + 4) 2 (n / 2 ^ 16 % 2 ^ 16)).writeN (a + 6) 2 (n % 2 ^ 16)
/-- A header with LEN 8, ENTRY and MONO, RECONV 0x200 parcels, class 0. -/
def hdrWord : Word := 0xA008000004001100#64
/-- One 1 GiB uncached page of every permission, and headers at 0x200000 and 0x200400. -/
def memA : Memory :=
  [(0, 0x01), (2, 0x10), (0x100000, 0xCF), (0x100001, 0x0B), (0x200000, 0x08), (0x200001, 0xA0), (0x200005, 0x04), (0x200007, 0x11),
   (0x200400, 0x08), (0x200401, 0xA0), (0x200405, 0x04), (0x200407, 0x11)]
theorem memA_eq : memA = code (code ((Memory.writeN [] 0 8 0x100001).writeN 0x100000 8 0xBCF) 0x200000 hdrWord) 0x200400 hdrWord := by decide +kernel
def pathA : Path := { pc := 0x200008, atHdr := false, hdr := ⟨0x200000, hdrWord⟩, lanes := 0xFFFF, exec := 0xFFFF }
def lanesOf (x : Lane) : List Lane := List.replicate 16 x
/-- Scalars: s1 a global address, s2 and s3 small, s4 to s7 addresses and lengths; vectors v1 to v6. -/
def wA : Warp :=
  { real := true, id := { nwarps := 4, tncount := 8 }, baton := some 0, resV := 64, resS := 64, p := pathA
    sregs := [(1, { val := 0x300000 }), (2, { val := 7 }), (3, { val := 2 }), (4, { val := 0x300040 }), (5, { val := 64 }), (126, { val := 0x200400 })]
    vregs := [(1, { lanes := lanesOf 0x3F800000 }), (2, { lanes := lanesOf 0x7F800001 }), (3, { lanes := lanesOf 5 }), (4, { lanes := lanesOf 0 })] }
def sA : State :=
  { w := wA, cores := [(0, { block := some { nwarps := 4, batons := 1, spadpg := 4 } })], parts := [(0, { dies := [0], domains := [0], vdevs := [0] })]
    mem := memA, io := { frames := [(1, (0, 0))], ready := true } }
def withW (s : State) (f : Warp → Warp) : State := { s with w := f s.w }
/-- Lanes 0 to 7 alone are active. -/
def sHalf : State := withW sA fun w => { w with p := { w.p with exec := 0xFF } }
def sNone : State := withW sA fun w => { w with p := { w.p with exec := 0 } }
def plain : Ctl := ⟨0, false⟩
/-- Every operand is a last use. -/
def lastUse : Ctl := ⟨7, false⟩

theorem exists_ok {ε α : Type} {r : Except ε (List α)} (h : (match r with
    | .ok (_ :: _) => true
    | _ => false) = true) : ∃ l, r = .ok l ∧ l ≠ [] := by
  match r, h with
  | .ok (a :: l), _ => exact ⟨a :: l, rfl, List.cons_ne_nil a l⟩

/-! ## Witnesses: states and operands that meet the hypotheses of the statements -/

/-- Two sources that are last uses, the destination one of them; s0 as destination; a destination that is read (SHII). -/
theorem witness_ScalarInstructions :
    Ready { ssrc := [(2, luA lastUse), (3, luB lastUse)], sdst := [3] } sA ∧ Ready { ssrc := [(2, luA plain)], sdst := [0] } sA ∧
    Ready { ssrc := [(5, false)], sdst := [5] } sNone := by
  unfold Ready Issues; decide +kernel
theorem witness_ScalarInstructions_counts :
    Ready { ssrc := [(2, true), (3, false)], sdst := [127] } sA ∧ Ready { ssrc := [(2, false)], sdst := [9] } sA ∧ sA.w.W ≤ 64 ∧
    Ready { sdst := [9] } sA := by
  unfold Ready Issues; decide +kernel
theorem witness_MaskInstructions : Ready {} sA ∧ Ready { ssrc := [(2, true)] } sHalf := by
  unfold Ready Issues; decide +kernel

/-- v240 as a write port over global memory, and as a read port. -/
def sPort : State := withW sA fun w => { w with sds := { base := 0x300000, stride := 4, count := 20, esize := 4, dir := true, bound := true } :: w.sds.drop 1 }
def sRdPort : State := withW sA fun w => { w with sds := { base := 0x300000, stride := 4, count := 20, esize := 4, bound := true } :: w.sds.drop 1 }
theorem witness_VectorResultsToPorts :
    sPort.w.portOf 240 = some 0 ∧ Ready { vsrc := [(1, true), (3, false)], vdst := [240] } sPort ∧
    ∃ accs, checkElems sPort sPort.w .store false (portElems sPort.w.W (sPort.w.sd 0) (sPort.w.activeMask 0)) = .ok accs ∧ accs ≠ [] :=
  ⟨by decide +kernel, by unfold Ready Issues; decide +kernel, exists_ok (by decide +kernel)⟩
theorem witness_IntegerVectorInstructions :
    sHalf.w.portOf 3 = none ∧ Ready { vsrc := [(1, true), (3, true)], vdst := [3], ms := 0 } sHalf ∧
    Ready { vsrc := [], ssrc := [(2, true)], vdst := [255] } sHalf := by
  unfold Ready Issues; decide +kernel
theorem witness_ComparesAndBrackets :
    Ready { vsrc := [(1, true), (3, false)], ms := 1 } sHalf ∧ sA.w.activeMask 0 ≠ 0 ∧ sA.w.activeMask 1 = 0 := by
  unfold Ready Issues; decide +kernel

/-- FADD of 1.0 and 5 denormals raises nothing that TRAPEN enables; of a signalling NaN it raises invalid, which sTrap enables. -/
def fAdd (a b : VIdx) : Stmt.FForm :=
  { vs := [(a, false), (b, false)], d := 9, ms := 0, i := .fadd plain 9 a b 0 .rn,
    v := fun w L => Stmt.lane32 (f32.add (modeOf w .rn) (w.lane a L).toNat (w.lane b L).toNat) }
def sTrap : State := withW sA fun w => { w with trapen := 0x1F }
theorem witness_FloatResults : sA.w.portOf (fAdd 1 3).d = none ∧ Ready (fAdd 1 3).form.use sA ∧ ¬ (fAdd 1 3).Traps sA.w := by
  refine ⟨by decide +kernel, by unfold Ready Issues; decide +kernel, ?_⟩
  rintro ⟨k, -, -, h⟩
  exact absurd h (by rw [show sA.w.trapen = 0#5 from rfl]; simp)
theorem witness_FloatFlagsAndCompares :
    Ready (fAdd 1 2).form.use sTrap ∧ (fAdd 1 2).Traps sTrap.w ∧
    Ready { vsrc := [(1, false), (2, false)], ms := 0 } sA ∧
    ∀ L, L < sA.w.W → (sA.w.activeMask 0).getLsbD L = true → (fcmp .lt (sA.w.lane 1 L).toNat (sA.w.lane 2 L).toNat).2 &&& sA.w.trapen = 0 := by
  refine ⟨by unfold Ready Issues; decide +kernel, ?_, by unfold Ready Issues; decide +kernel, by decide +kernel⟩
  have h : ∃ k, k < 5 ∧ ((fAdd 1 2).v sTrap.w 0).2.getLsbD k = true ∧ sTrap.w.trapen.getLsbD k = true := by decide +kernel
  obtain ⟨k, hk, h1, h2⟩ := h
  exact ⟨k, hk, ⟨0, by decide +kernel, by decide +kernel, h1⟩, h2⟩

theorem witness_Reductions :
    Stmt.groupOk .g4 sA.w.W 4 ∧ Stmt.groupOk .full sA.w.W 16 ∧ sA.w.portOf 9 = none ∧ Ready { vsrc := [(3, false)], vdst := [9], ms := 0 } sA ∧
    sA.w.trapen = 0 := by
  unfold Ready Issues Stmt.groupOk; decide +kernel
theorem witness_LanesAcross :
    (Stmt.groupOk .g2 sA.w.W 2 ∧ (2 : Nat) = 2 ^ 1 ∧ Ready { vsrc := [(3, true)], ssrc := [(2, true)], vdst := [9] } sA) ∧
    (sA.w.activeMask 0 ≠ 0 ∧ Ready { vsrc := [(3, true)], ssrc := selSrc plain (.reg 2), sdst := [9] } sA) ∧
    (sNone.w.activeMask 0 = 0 ∧ Ready { vsrc := [(3, true)], ssrc := selSrc plain (.imm 63) } sNone) ∧
    Ready { ssrc := (2, false) :: selSrc plain (.imm 63), vdst := [9] } sA := by
  unfold Ready Issues Stmt.groupOk; decide +kernel

/-! ### Memory -/

/-- [s1], no index, every lane of exec; in scratchpad at offset s2 − 7. -/
def mG : MemV := ⟨1, none, 0, false, .none, 0⟩
def mS : MemV := ⟨2, none, 0xFF9, true, .none, 0⟩
theorem witness_Loads :
    (Ready (Stmt.useLd plain 9 mG .w64) sA ∧ sA.w.portOf 9 = none ∧ sA.w.portOf (9 + 1) = none ∧
      ∃ accs, checkElems sA sA.w .load false (Stmt.laneElems sA.w mG 8) = .ok accs ∧ accs ≠ []) ∧
    (Ready (Stmt.useLd plain 9 mS .i8) sNone ∧ sNone.w.activeMask 0 = 0) ∧
    (Ready { ssrc := [(1, true)], sdst := [0], cls := some .ld } sA ∧
      ∃ accs, checkElems sA sA.w .load false [(0, Stmt.scalarAddr sA.w ⟨1, 8, false, .none⟩, 8)] = .ok accs ∧ accs ≠ []) ∧
    (Ready (Stmt.useLd plain 240 mS .w32) sPort ∧ sPort.w.portOf 240 = some 0 ∧
      (∃ accs, checkElems sPort sPort.w .load true (Stmt.laneElems sPort.w mS 4) = .ok accs ∧ accs ≠ []) ∧
      ∃ outs, checkElems sPort sPort.w .store false (portElems sPort.w.W (sPort.w.sd 0) (sPort.w.activeMask 0)) = .ok outs ∧ outs ≠ []) :=
  ⟨⟨by unfold Ready Issues; decide +kernel, by decide +kernel, by decide +kernel, exists_ok (by decide +kernel)⟩, by unfold Ready Issues; decide +kernel,
   ⟨by unfold Ready Issues; decide +kernel, exists_ok (by decide +kernel)⟩,
   by unfold Ready Issues; decide +kernel, by decide +kernel, exists_ok (by decide +kernel), exists_ok (by decide +kernel)⟩

/-- v9 waits for a load. -/
def sPend : State := withW sA fun w => { w with vregs := w.vregs ++ [(9, { lanes := lanesOf 0, pend := some 0 })] }
/-- v9 and s9 wait for loads that a younger write may overtake. -/
def sYounger : State := withW sPend fun w => { w with
  sregs := w.sregs.put 9 { val := 0, pend := some 0 }, opNext := 2
  ops := [{ id := 0, cls := .ld, k := .load .w32 false, dst := .vec 9 false, accs := [{ lane := 3, va := 64, addr := 64, n := 4 }] },
          { id := 1, cls := .ld, k := .load .w64 true, dst := .sca 9, accs := [{ lane := 0, va := 64, addr := 64, n := 8 }] }] }
theorem witness_IssueWaits :
    (sPort.w.portOf 240 = some 0 ∧ (sPort.w.sd 0).dir = true) ∧ (sRdPort.w.portOf 240 = some 0 ∧ (sRdPort.w.sd 0).dir = false) ∧
    (wrongWay sPend.w { vsrc := [(9, false)], vdst := [8] } = false ∧ sPend.w.portOf 9 = none ∧ sPend.w.pendingV 9 = true) ∧
    (sYounger.w.portOf 9 = none ∧ Issues { vsrc := [(1, false), (2, false)], vdst := [9] } sYounger ∧ sYounger.w.pendingV 9 = true ∧
      sYounger.w.activeMask 0 ≠ 0 ∧ ∃ o ∈ sYounger.w.ops, sYounger.w.recorded o.id = false ∧ o.dst = .vec 9 false) ∧
    (Issues { sdst := [9] } sYounger ∧ sYounger.w.pendingS 9 = true ∧
      ∃ o ∈ sYounger.w.ops, sYounger.w.recorded o.id = false ∧ o.dst = .sca 9) := by
  unfold Issues; decide +kernel
theorem witness_StoresIssue :
    (Ready (Stmt.useSt lastUse 3 mS .w64) sA ∧ ∃ accs, checkElems sA sA.w .store true (Stmt.laneElems sA.w mS 8) = .ok accs ∧ accs ≠ []) ∧
    (Ready { ssrc := [(1, true), (2, true)], cls := some .st } sA ∧
      ∃ accs, checkElems sA sA.w .store false [(0, Stmt.scalarAddr sA.w ⟨1, 0, false, .none⟩, 1)] = .ok accs ∧ accs ≠ []) ∧
    Ready { vsrc := Sys2Proof.Machine.memV plain mG, ssrc := [(1, false)] } sA :=
  ⟨⟨by unfold Ready Issues; decide +kernel, exists_ok (by decide +kernel)⟩, ⟨by unfold Ready Issues; decide +kernel, exists_ok (by decide +kernel)⟩,
   by unfold Ready Issues; decide +kernel⟩
theorem witness_AtomicOperations :
    (Ready { vsrc := Sys2Proof.Machine.memV plain mG ++ regs1 lastUse (rmwRegs .cas 9 true), ssrc := [(1, false)], vdst := [9, 10], cls := some .ld } sA ∧
      sA.w.portOf 9 = none ∧ sA.w.portOf (9 + 1) = none ∧
      ∃ accs, checkElems sA sA.w .atomic false (Stmt.laneElems sA.w mG 8) = .ok accs ∧ accs ≠ []) ∧
    (Ready { vsrc := Sys2Proof.Machine.memV plain mS ++ regs1 plain (rmwRegs .fadd 3 false), ssrc := [(2, false)], cls := some .st } sA ∧
      ∃ accs, checkElems sA sA.w .store true (Stmt.laneElems sA.w mS 4) = .ok accs ∧ accs ≠ []) :=
  ⟨⟨by unfold Ready Issues; decide +kernel, by decide +kernel, by decide +kernel, exists_ok (by decide +kernel)⟩,
   by unfold Ready Issues; decide +kernel, exists_ok (by decide +kernel)⟩
/-- [s1 + 1] as words: every lane misaligned. -/
theorem witness_ValuesAndAlignment :
    ((0xFFFFFFFF : Nat) < 256 ^ 4 ∧ (2 ^ 64 - 1 : Nat) < 256 ^ 8) ∧
    Ready (Stmt.useLd plain 9 { mG with off := 1 } .w32) sA ∧ Ready (Stmt.useSt plain 3 { mG with off := 1 } .w32) sA ∧
    ∃ e ∈ Stmt.laneElems sA.w { mG with off := 1 } 4, e.2.1 % e.2.2 ≠ 0 := by
  unfold Ready Issues; decide +kernel
theorem witness_LoadReserve :
    (Ready { ssrc := [(1, false)], sdst := [9], cls := some .ld } sA ∧
      ∃ a, checkElems sA sA.w .atomic false [(0, Stmt.scalarAddr sA.w ⟨1, 0, false, .none⟩, 8)] = .ok [a]) ∧
    (Ready { ssrc := [(2, true), (3, true)], sdst := [3], cls := some .st } sA ∧
      ∃ a, checkElems sA sA.w .atomic true [(0, Stmt.scalarAddr sA.w ⟨2, 0xFF9, true, .none⟩, 4)] = .ok [a]) :=
  ⟨⟨by unfold Ready Issues; decide +kernel, _, rfl⟩, by unfold Ready Issues; decide +kernel, _, rfl⟩
/-- Bases below and at 2^56, element sizes 4 and 5. -/
theorem witness_StreamDescriptors :
    (Ready { ssrc := [(1, true), (2, true), (3, true)] } sA ∧ sA.w.activeMask 0 ≠ 0 ∧ (4#3).toNat ≤ 4 ∧ (sA.w.rdS 1).toNat < 2 ^ 56 ∧
      sA.w.pendingV (240 + (0#3).setWidth 8) = false) ∧
    (let s := withW sA fun w => w.wrS 9 0x100000000000000#64
     Ready { ssrc := [(9, false), (2, false), (3, false)] } s ∧ s.w.activeMask 0 ≠ 0 ∧ 2 ^ 56 ≤ (s.w.rdS 9).toNat ∧ 5 ≤ (5#3).toNat) ∧
    (Ready { ssrc := [(1, true), (2, true), (3, true)] } sNone ∧ Ready { ssrc := [(1, true)] } sNone ∧ Ready {} sNone ∧ sNone.w.activeMask 0 = 0) ∧
    Ready {} sPort ∧ Ready { ssrc := [(2, false)] } sPort ∧ Ready { sdst := [9] } sPort ∧ sPort.w.activeMask 0 ≠ 0 := by
  unfold Ready Issues; and_intros <;> decide +kernel

/-! ### Barriers, fences, tiles -/

/-- Later than every completion time of the warp. -/
def sLate : State := { sA with tick := 100 }
/-- A store of the warp that is not applied yet. -/
def opSt : Op := { id := 0, cls := .st, k := .store, accs := [{ lane := 0, va := 0x300000, addr := 0x300000, n := 4, home := 48, uncached := true }] }
def sStore : State := withW sLate fun w => { w with ops := [opSt], opNext := 1 }
/-- One window over the page of s1, and a page that is no publication page (lease page of the same kind without PUBW). -/
def sWin : State := { sA with io := { sA.io with windows := [(0, { va := 0x300000, len := 1, ctr := 64 })] } }
def sNoPub : State := { sWin with mem := sWin.mem.writeN 0x100000 8 0x3CF }
theorem witness_FencesAndPublication :
    (fenceOk sLate sLate.w .d = true ∧ (∀ o ∈ sLate.w.ops, o.done = true) ∧ sLate.w.lctb < sLate.now ∧ sLate.w.lctg < sLate.now ∧ sLate.w.lctd < sLate.now) ∧
    (fenceOk sStore sStore.w .g = false ∧ ∃ o ∈ sStore.w.ops, o.done = false ∧ o.k.writes = true ∧ o.sp = false) ∧
    (Ready { ssrc := [(1, false)], sdst := [9], cls := some .st } sWin ∧ translate sWin sWin.w .load 0x300000 = .ok 0x300000 0xBCF ∧
      windowOf sWin sWin.w 0x300000 = some 0 ∧ ptePubw 0xBCF = true) ∧
    (Ready { ssrc := [(1, false)], sdst := [9], cls := some .st } sNoPub ∧ translate sNoPub sNoPub.w .load 0x300000 = .ok 0x300000 0x3CF ∧
      windowOf sNoPub sNoPub.w 0x300000 = some 0 ∧ ptePubw 0x3CF = false) := by
  unfold Ready Issues; decide +kernel

/-- The counts at which the clauses of the barrier's rules meet. -/
theorem witness_BarrierObjectRules :
    let b : BarObj := { phase := false, evb := false, expb := 8, pendb := 0, arrcnt := 1, exparr := 2 }
    let b2 : BarObj := { b with arrcnt := 0, pendb := 8 }
    let b3 : BarObj := { b with pendb := 1 }
    (b.arrcnt ≤ 1 ∧ b.pendb = 0) ∧ (0 < b3.pendb ∧ 0 < b3.arrcnt) ∧ (b2.arrcnt = 0 ∧ b2.pendb ≤ 8) ∧ 7 < b2.pendb := by decide
/-- The object at scratchpad offset 0: [s2 − 7]. Its PHASE is 0: sD with bit 0 clear waits, with bit 0 set does not. -/
theorem witness_BarrierInstructions :
    (Stmt.BarAt sA 2 0xFF9 0 ∧ Stmt.BarSettled sA 0) ∧
    (Ready { ssrc := [(2, true), (3, true)], cls := some .st } sA ∧ Ready { ssrc := [(2, true)], cls := some .st } sA ∧
     Ready { ssrc := [(2, false), (3, true)], sdst := [3] } sA ∧ Ready { ssrc := [(2, false), (2, true)], sdst := [2] } sA ∧ Ready { ssrc := [(2, false)], sdst := [3] } sA) ∧
    (BarObj.read (sA.core sA.w.core).sp 0).phase = (sA.w.rdS 3).getLsbD 0 ∧ (BarObj.read (sA.core sA.w.core).sp 0).phase ≠ (sA.w.rdS 2).getLsbD 0 := by
  unfold Ready Issues Stmt.BarAt Stmt.BarSettled; decide +kernel
theorem witness_Syncs :
    (let s := withW sLate fun w => { w with paths := [(1, pathA)] }
     s.w.paths ≠ []) ∧
    (let s := withW sLate fun w => { w with arrive := some ⟨.b, 0, true⟩ }
     s.w.paths = [] ∧ s.w.arrive = some ⟨.b, 0, true⟩) ∧
    (let s := withW sLate fun w => { w with arrive := some ⟨.d, 0, false⟩ }
     s.w.paths = [] ∧ s.w.arrive = some ⟨.d, 0, false⟩) ∧
    (sStore.w.paths = [] ∧ sStore.w.arrive = none ∧ fenceOk sStore sStore.w .d = false) ∧
    (sLate.w.paths = [] ∧ sLate.w.arrive = none ∧ sLate.w.real = true ∧ fenceOk sLate sLate.w .b = true) := by decide +kernel

def withTile (s : State) (n : Nat) (t : Tile) : State := { s with clusters := [(0, { s.cluster 0 with tiles := [(n, t)] })] }
/-- Name 2 FILLING by this warp, READY, FILLING with a write outstanding, VOID; READY with a read; DRAINING. -/
def sFill : State := withTile sA 2 { st := .filling, defc := 1, used := true }
def sReady : State := withTile sA 2 { st := .ready, defc := 1, used := true }
def sFillW : State := withTile sA 2 { st := .filling, defc := 1, used := true, writes := 1 }
def sReadyR : State := withTile sA 2 { st := .ready, defc := 1, used := true, reads := 1 }
def sVoid : State := withTile sA 2 { st := .ready, void := true, defc := 1, used := true }
def sDrain : State := withTile sA 2 { st := .draining, defc := 1, used := true, reads := 1 }
def sOther : State := withTile sA 2 { st := .filling, defc := 1, used := true, defw := 3 }
def sSealed : State := withTile sA 2 { st := .filling, defc := 1, used := true, sealP := true, writes := 1 }
/-- The gang of the warp holds a window of eight names. -/
def inGang (s : State) : State := { s with gangs := [(0, { tncount := 8, started := 1 })] }
/-- Every name of the window is taken. -/
def sFull : State := { inGang sA with clusters := [(0, { tiles := (List.range 8).map fun n => (n, { st := .filling, used := true }) })] }
theorem witness_TileDefines :
    (sA.w.park = none ∧ Ready { ssrc := tileSrc (.reg 2) true } sA ∧ Stmt.Names sA.w (.reg 2) 7 ∧ (sA.tile sA.w.cluster 7).st = .free) ∧
    (Ready { sdst := [hS 9] } (inGang sA) ∧ (inGang sA).freeHead 0 ((inGang sA).gang 0 0) = some 0) := by
  unfold Ready Issues Stmt.Names; decide +kernel
theorem witness_TileRows :
    (sFill.w.full = true ∧ 15 + sFill.W / 16 ≤ 16 ∧ Ready { vsrc := [(3, true)], ssrc := tileSrc (.name 2) false, cls := some .tl, allLanes := true } sFill ∧
      Stmt.Names sFill.w (.name 2) 2 ∧ Stmt.Filling sFill 2) ∧
    (Ready { ssrc := tileSrc (.name 2) false ++ hRun 4 2, cls := some .tl } sFill ∧
      ∃ accs, checkElems sFill sFill.w .load false (unitElems (units (sFill.w.rdS (hS 4)) (sFill.w.rdS (hS 4 + 1)) .row)) = .ok accs ∧ accs ≠ []) ∧
    (Ready { ssrc := tileSrc (.name 2) false } sFillW ∧ Stmt.Filling sFillW 2 ∧ (sFillW.tile 0 2).writes ≠ 0) ∧
    ((sFill.tile 0 2).writes = 0 ∧ (sFill.tile 0 2).parked = []) ∧
    (sReady.w.park = none ∧ sReady.w.portOf 9 = none ∧ Ready { ssrc := tileSrc (.reg 3) false, vdst := [9], cls := some .tl, allLanes := true } sReady ∧
      Stmt.Names sReady.w (.reg 3) 2 ∧ (sReady.tile 0 2).st = .ready ∧ allLanes sReady.W ≠ 0) ∧
    (Ready { ssrc := tileSrc (.name 2) false ++ hRun 4 2, cls := some .tl } sReady ∧
      ∃ accs, checkElems sReady sReady.w .store false (unitElems (units (sReady.w.rdS (hS 4)) (sReady.w.rdS (hS 4 + 1)) (storeForm false .w32))) = .ok accs ∧ accs ≠ []) ∧
    ((sReadyR.tile 0 2).st = .ready ∧ (sReadyR.tile 0 2).reads ≠ 0) ∧
    ((sReady.tile 0 2).reads = 0 ∧ (sReady.tile 0 2).parked = [] ∧ ∀ g ∈ sReady.gangs.vals, g.newWait = []) ∧
    ((sDrain.tile 0 2).st ≠ .ready ∧ Ready { ssrc := tileSrc (.reg 3) false, sdst := [hS 9] } sDrain) ∧
    (Ready { vsrc := [(1, false), (2, false), (9, false)], ssrc := [(3, false)], vdst := [9], ms := 0, cls := some .tl } sReady ∧ sReady.w.activeMask 0 ≠ 0) :=
  ⟨by unfold Ready Issues Stmt.Names Stmt.Filling; decide +kernel, ⟨by unfold Ready Issues; decide +kernel, exists_ok (by decide +kernel)⟩,
   by unfold Ready Issues Stmt.Filling; decide +kernel, by decide +kernel, by unfold Ready Issues Stmt.Names; decide +kernel,
   ⟨by unfold Ready Issues; decide +kernel, exists_ok (by decide +kernel)⟩, by decide +kernel, by decide +kernel, by unfold Ready Issues; decide +kernel,
   by unfold Ready Issues; decide +kernel⟩
theorem witness_TileParksAndFaults :
    (sReady.w.park = none ∧ Ready { ssrc := tileSrc (.name 2) false } sReady ∧ Stmt.Names sReady.w (.name 2) 2 ∧ (sReady.tile 0 2).st ≠ .free) ∧
    (sFill.w.full = true ∧ sFill.w.portOf 9 = none ∧ Ready { ssrc := tileSrc (.name 2) false, vdst := [9], cls := some .tl, allLanes := true } sFill ∧
      (sFill.tile 0 2).st = .filling ∧ (sA.tile 0 2).st = .free) ∧
    (Ready { sdst := [hS 9] } sFull ∧ sFull.freeHead 0 (sFull.gang 0 0) = none) ∧
    (¬ ∃ m, Stmt.Names sFill.w (.name 8) m) ∧
    ((sOther.tile 0 2).st = .filling ∧ (sOther.tile 0 2).defw ≠ sOther.w.idx) ∧ (sSealed.tile 0 2).sealP = true ∧ (sDrain.tile 0 2).st = .draining ∧
    ((sVoid.tile 0 2).void = true ∧ (sVoid.tile 0 2).defw = sVoid.w.idx ∧ (sVoid.tile 0 2).defb = sVoid.w.id.block) ∧ (sReady.tile 0 2).void = false := by
  refine ⟨by unfold Ready Issues Stmt.Names; decide +kernel, by unfold Ready Issues; decide +kernel, by unfold Ready Issues; decide +kernel, ?_, by decide +kernel, by decide +kernel,
    by decide +kernel, by decide +kernel, by decide +kernel⟩
  rintro ⟨m, h, -⟩
  exact absurd h (by decide +kernel)

/-! ### Leases and engines -/

def withLeases (s : State) (l : List (Nat × Lease)) : State := { s with clusters := [(0, { s.cluster 0 with leases := l })] }
/-- Handles: MX 1, DM 1025, CV 2049, CL 3073 (class × 1024 + instance), in s10 to s13; operand runs behind s10, s20, s30 and s40. -/
def runs (w : Warp) : Warp := { w with sregs := w.sregs ++
  [(10, { val := 1 }), (11, { val := 2 }), (20, { val := 1025 }), (21, { val := 0x300000 }), (22, { val := 0x300100 }), (23, { val := 64 }), (24, { val := 0 }),
   (30, { val := 2049 }), (31, { val := 1 }), (32, { val := 0x100010001 }), (33, { val := 0x100000001 }),
   (35, { val := 2049 }), (36, { val := 0x300000 }),
   (40, { val := 3073 }), (41, { val := 0x300000 }), (42, { val := 0x300100 }), (43, { val := 16 }), (44, { val := 0 }), (45, { val := 0 })] }
def lMx : Lease := { cls := .mx, inst := 1, st := .live }
def lDm : Lease := { cls := .dm, inst := 1, st := .waking, wakeAt := 50 }
def lCv : Lease := { cls := .cv, inst := 1, st := .live, binding := some 1, eng := { shape := some (0x100010001, 0x100000001) } }
def lCl : Lease := { cls := .cl, inst := 1, st := .live }
def sEng : State := withLeases (withW sA runs) [(1, lMx), (1025, lDm), (2049, lCv), (3073, lCl)]
def sEngT : State := { sEng with clusters := [(0, { sEng.cluster 0 with tiles := [(2, { st := .ready, used := true }), (3, { st := .filling, used := true })] })] }
/-- A partition whose lease quota bars it; one that has room. -/
def quotaPart : Part := { dies := [0], domains := [0], vdevs := [0], energy := ⟨100, 0⟩, lease := ⟨100, 0⟩, launches := ⟨10, 0⟩, ecap := 1000000 }
def sQuota : State := { sA with parts := [(0, quotaPart)] }
def sBarred : State := { sA with parts := [(0, { quotaPart with qexh := 8, frames := ⟨1, 1⟩ })] }
def req5 : LReq := { warp := 5, dst := 9, cls := .dm, sh := false, prio := 3, since := 0 }
def sQueue (n : Nat) : State := { sQuota with clusters := [(0, { queue := List.replicate n req5 })] }
/-- Warp 5 waits in the queue; the grant can be made. -/
def sGrant : State := { sQueue 1 with warps := [(5, { wA with idx := 5, baton := none })] }
/-- Every DM instance has a context. -/
def sTaken : State := { sQuota with clusters := [(0, { leases := (List.range 16).map fun i => (1024 + i, { cls := .dm, inst := i, st := .live }) })] }
/-- The acting warp's LEASET of the cycle just past stands to be decided. -/
def withTry (s : State) (k : EngClass) : State :=
  { s.modCluster 0 fun c => { c with tries := [⟨s.w.key, 9, k, false, 1, 0, 8, true⟩] } with arg := { cluster := 0 } }
theorem witness_Leases :
    (Ready { sdst := [hS 9] } (sQueue 64) ∧ leaseBarred (sQueue 64) 0 = false ∧ Config.leaseQueueCap ≤ ((sQueue 64).cluster 0).queue.length ∧
      ∀ r ∈ ((sQueue 64).cluster 0).queue, r.warp ≠ (sQueue 64).w.key) ∧
    (leaseBarred (sQueue 63) 0 = false ∧ ((sQueue 63).cluster 0).queue.length < Config.leaseQueueCap) ∧
    (Ready { sdst := [hS 9] } sBarred ∧ leaseBarred sBarred 0 = true ∧ quotaNew sBarred 0 = []) ∧
    (journalFull sGrant = false ∧ nextGrant sGrant 0 = some (req5, ⟨0, none, 2⟩) ∧ ∃ w, sGrant.warp? 5 = some w ∧ w.cluster = 0) ∧
    (Ready { sdst := [hS 9] } sQuota ∧ leaseBarred sQuota 0 = false) ∧
    (let s := withTry sQuota .mx
     s.betweenCycles 0 = true ∧ nextGrant s 0 = none ∧ journalFull s = false ∧ (s.warp? s.w.key).any (fun w => w.life == .live) = true ∧
      canGrant s 0 s.w .mx false (scan s 0 (waiting s 0) []).2 = some ⟨0, none, 18⟩) ∧
    (let s := withTry sTaken .dm
     nextGrant s 0 = none ∧ canGrant s 0 s.w .dm false (scan s 0 (waiting s 0) []).2 = none) := by
  refine ⟨by unfold Ready Issues; decide +kernel, by decide +kernel, by unfold Ready Issues; decide +kernel, ⟨by decide +kernel, by decide +kernel, _, rfl, by decide +kernel⟩,
    by unfold Ready Issues; decide +kernel, by decide +kernel, by decide +kernel⟩
/-- VACATE and LSTAT: no lease, live with and without commands, vacating, evicted. -/
def qZero : QCmd := { warp := 0, op := 0, c := .zero 0, regs := [1] }
theorem witness_LeaseRelease :
    Ready { ssrc := [(hS 10, false)] } sEng ∧ Ready { ssrc := [(hS 10, false)], sdst := [9] } sEng ∧ leaseOf sEng sEng.w (sEng.w.rdS (hS 5)) = none ∧
    (Stmt.Holds sEng 10 lMx ∧ lMx.st = .live ∧ lMx.queue = [] ∧ parkedCmds sEng 0 (sEng.w.rdS (hS 10)).toNat = 0 ∧ Stmt.NoTrace sEng ∧
      onArray (sEng.cluster 0) (sEng.w.rdS (hS 10)).toNat = []) ∧
    (Stmt.Holds sEng 20 lDm ∧ lDm.st = .waking ∧ lDm.queue = []) ∧
    (let s := { sEng with warps := [(1, { wA with idx := 1, baton := none, park := some { name := 2, k := .cmd 1 qZero } })] }
     Stmt.Holds s 10 lMx ∧ parkedCmds s s.w.cluster (s.w.rdS (hS 10)).toNat ≠ 0) ∧
    (let l := { lMx with queue := [qZero] }
     Stmt.Holds (withLeases sEng [(1, l)]) 10 l ∧ l.queue ≠ []) ∧
    (let l := { lMx with st := .vacating, queue := [qZero] }
     Stmt.Holds (withLeases sEng [(1, l)]) 10 l ∧ l.st = .vacating) ∧
    (let l := { lMx with st := .evicted, aborted := true }
     Stmt.Holds (withLeases sEng [(1, l)]) 10 l ∧ l.st = .evicted ∧ l.stopping = false) := by
  unfold Ready Issues Stmt.Holds Stmt.NoTrace; decide +kernel
theorem witness_EngineCommands :
    (sEngT.w.park = none ∧ sEngT.w.full = true ∧ Stmt.Holds sEngT 10 lMx ∧ lMx.queue.length < Config.commandQueueCap ∧ Stmt.Names sEngT.w (.name 2) 2 ∧
      (sEngT.tile 0 2).st = .ready ∧ Stmt.Filling sEngT 3 ∧ Stmt.Names sEngT.w (.name 3) 3) ∧
    (Ready { ssrc := tileSrc (.name 2) false ++ hRun 10 1, cls := some .mx } sEngT ∧ Ready { ssrc := hRun 30 4, cls := some .mx } sEngT ∧
      height (bBytes .e4m3) * (7 + 1) ≤ kCap lMx ∧ 2 + 0 + 1 ≤ sEngT.w.id.tnbase + sEngT.w.id.tncount ∧ pairs .bf16 lMx.eng.bfmt = true ∧
      height (aBytes .bf16) * ((sEngT.w.rdS (hS 10 + 1)).toNat % 16 + 0 + 1) ≤ kCap lMx) ∧
    (∃ m, leaseOf sEng sEng.w (sEng.w.rdS (hS 30 + 1)) = some m ∧ m.cls = .mx ∧ m.st ≠ .vacating ∧
      shapeBad (sEng.w.rdS (hS 30 + 2)) (sEng.w.rdS (hS 30 + 3)) (kCap m) = false) ∧
    (Stmt.Holds sEng 35 lCv ∧ ∃ m, lCv.eng.shape = some (0x100010001, 0x100000001) ∧ boundMx sEng sEng.w lCv = some m ∧ pairs .e4m3 m.eng.bfmt = true ∧
      (shapeOf 0x100010001 0x100000001).ch * aBytes .e4m3 ≤ (shapeOf 0x100010001 0x100000001).pix ∧
      ∃ accs, checkSpans sEng sEng.w (convSpans (sEng.w.rdS (hS 35 + 1)).toNat (shapeOf 0x100010001 0x100000001) 1 false) = .ok accs ∧ accs ≠ []) ∧
    (Stmt.Holds sEng 20 lDm ∧ Ready { ssrc := hRun 20 5, cls := some .dm } sEng ∧ Stmt.goodLen (sEng.w.rdS (hS 20 + 3)) ∧
      ∃ accs, checkSpans sEng sEng.w [Stmt.runFrom false 0x300000 64, Stmt.runInto' false 0x300100 64] = .ok accs ∧ accs ≠ []) ∧
    (sEng.w.activeMask 0 ≠ 0 ∧ Ready { vsrc := [(3, true)] } sNone) := by
  refine ⟨by unfold Stmt.Holds Stmt.Names Stmt.Filling; decide +kernel, by unfold Ready Issues; decide +kernel, ⟨_, rfl, by decide +kernel⟩,
    ⟨by unfold Stmt.Holds; decide +kernel, _, by decide +kernel, rfl, by decide +kernel, by decide +kernel, exists_ok (by decide +kernel)⟩,
    ⟨by unfold Stmt.Holds; decide +kernel, by unfold Ready Issues; decide +kernel, by unfold Stmt.goodLen; decide +kernel, exists_ok (by decide +kernel)⟩,
    by unfold Ready Issues; decide +kernel⟩
/-- Lengths at the ends of their range: 2^26 counts pass, 0 and 2^24 + 8 bytes do not; a count that is no multiple of 8. -/
theorem witness_CollectivesAndFaults :
    (Stmt.Holds sEng 40 lCl ∧ Ready { ssrc := hRun 40 6, cls := some .cl } sEng ∧ sEng.w.rdS (hS 40 + 3) ≠ 0 ∧ (sEng.w.rdS (hS 40 + 3)).toNat ≤ 2 ^ 26 ∧
      (sEng.w.rdS (hS 40 + 4)).toNat < nranks sEng sEng.w ∧ tagTaken sEng sEng.w 255 = false) ∧
    (let s := { withW sEng fun w => { w with id := { w.id with rank := 1 } } with launches := [(0, { ranks := [⟨0, 0, 0, 1⟩, ⟨0, 1, 1, 1⟩] })] }
     (s.w.rdS (hS 40 + 4)).toNat < nranks s s.w ∧ s.w.rdS (hS 40 + 4) ≠ BitVec.ofNat 64 s.w.id.rank) ∧
    (let s := { sEng with launches := [(0, { tags := [(255, (1, 1))] })] }
     ∃ g n, (s.launch s.w.id.lid).tags.get? (256 * s.w.die + (255#8).toNat) = some (g, n) ∧ g ≠ s.w.id.gang) ∧
    (sHalf.w.park = none ∧ sHalf.w.full = false) ∧ (Ready { ssrc := hRun 20 1, cls := some .mx } sEng ∧ ∀ l, Stmt.Holds sEng 20 l → l.cls ≠ .mx) ∧
    (let l := { lMx with eng := { lMx.eng with bfmt := some .f16 } }
     Stmt.Holds (withLeases sEng [(1, l)]) 10 l ∧ pairs .e4m3 l.eng.bfmt = false ∧ (7#12).toNat + (0#4).toNat + 1 ≤ sEng.w.id.tncount) ∧
    ((0#64 = 0 ∨ 2 ^ 24 < (0#64).toNat) ∧ 2 ^ 24 < (0x1000008#64).toNat ∧ (0x1000000#64).toNat ≤ 2 ^ 24 ∧ (12#64).toNat % 8 ≠ 0) := by
  refine ⟨by unfold Stmt.Holds Ready Issues; decide +kernel, by decide +kernel, ⟨1, 1, by decide +kernel, by decide +kernel⟩, by decide +kernel,
    ⟨by unfold Ready Issues; decide +kernel, ?_⟩, by unfold Stmt.Holds; decide +kernel, by decide⟩
  intro l h
  have : some l = some lDm := h.symm.trans (by decide +kernel)
  rw [Option.some.inj this]
  decide

/-! ### Control, traps, privileged instructions -/

/-- Warp 1 free, 2 exited, 3 holding; s3 names warp 2, s10 warp 1. -/
def mateA (i : Nat) : Warp := { wA with idx := i, baton := none, fsucc := 1 }
def sBlock : State := { (withW sA fun w => (w.wrS 10 1).wrS 11 3) with warps := [(1, mateA 1), (2, { mateA 2 with life := .exited }), (3, { mateA 3 with baton := some 1 })] }
/-- Names 0 to 4: the warp itself, a free one, an exited one, one that holds with a free successor, none. -/
theorem witness_PassForms :
    (sBlock.w.real = true ∧ Ready { ssrc := [(10, true)], sdst := [9] } sBlock ∧ Ready { sdst := [9] } sBlock ∧
      Ready (Stmt.usePassx plain 9 10 20 (some 3)) sBlock ∧ Ready (Stmt.usePassx lastUse 9 10 20 none) sBlock) ∧
    (Stmt.PassMeets sBlock 0 true 0 none ∧ Stmt.PassMeets sBlock 1 false 0 (some 1) ∧ Stmt.PassMeets sBlock 2 false 5 none ∧
      Stmt.PassMeets sBlock 3 false 1 (some 1) ∧ Stmt.PassMeets sBlock 4 false 5 none) ∧
    (sBlock.W ≤ 64 ∧ (sBlock.w.rdS 10).toNat ≠ sBlock.w.idx ∧ (sBlock.w.rdS 10).toNat < sBlock.w.id.nwarps ∧ Stmt.mate sBlock 1 = some (mateA 1) ∧
      (mateA 1).eligible = true ∧ (mateA 1).inboxFull = false ∧ (mateA 1).W = sBlock.W) := by
  refine ⟨by unfold Ready Issues; decide +kernel, ⟨.inl (by decide +kernel), .inr (.inr ⟨by decide, by decide, mateA 1, by decide +kernel, .inr (.inr (.inr (by decide +kernel)))⟩),
    .inr (.inr ⟨by decide, by decide, { mateA 2 with life := .exited }, by decide +kernel, .inl (by decide +kernel)⟩),
    .inr (.inr ⟨by decide, by decide, { mateA 3 with baton := some 1 }, by decide +kernel, .inr (.inr (.inl ⟨by decide +kernel, by decide +kernel,
      .inl ⟨by decide +kernel, ⟨mateA 1, by decide +kernel, by decide +kernel⟩, by decide +kernel⟩⟩))⟩),
    .inr (.inl (by decide +kernel))⟩, by decide +kernel⟩
/-- Numbers beside the registers: 9, 0x15, 0x62, 0x80; counters at and above the threshold. -/
theorem witness_ControlAndTime :
    Ready { sdst := [9] } sA ∧ Ready { ssrc := [(2, true)] } sA ∧ Ready {} sA ∧
    (∀ n ∈ [9#12, 0x15#12, 0x62#12, 0x80#12, 0xFFF#12], ¬ (n.toNat ≤ 8 ∨ 0x10 ≤ n.toNat ∧ n.toNat ≤ 0x14 ∨ 0x20 ≤ n.toNat ∧ n.toNat ≤ 0x23 ∨
       0x30 ≤ n.toNat ∧ n.toNat ≤ 0x33 ∨ 0x40 ≤ n.toNat ∧ n.toNat ≤ 0x42 ∨ n.toNat = 0x50 ∨ n.toNat = 0x51 ∨ n.toNat = 0x60 ∨ n.toNat = 0x61 ∨ 0x70 ≤ n.toNat ∧ n.toNat ≤ 0x7F)) ∧
    (2#6).getLsbD 1 = true ∧ sStore.w.cnt .st = 1 := by
  exact ⟨by unfold Ready Issues; decide +kernel, by unfold Ready Issues; decide +kernel, by unfold Ready Issues; decide +kernel, by simp, by decide +kernel⟩

/-- Class 1's table at 0x310000 has one word, the header at 0x200800 of class 1; v4 is zero in every lane. -/
def memCls : Memory := (((code memA 0x200800 0xA008000004001101#64).writeN 0x308010 8 0x310000).writeN 0x308018 4 1).writeN 0x310000 8 0x200800
def sCls : State := { (withW sA fun w => { w with id := { w.id with classdir := 0x308000, classn := 2 } }) with mem := memCls }
def dispA : Disp := { site := 0x200008, hdr := ⟨0x200000, hdrWord⟩, ret := 0x200400, exec0 := 0xFFFF, rem := 0xF, grp := 0xF, cls := 1, va := [] }
theorem witness_IndirectCalls :
    (Ready { vsrc := [(4, false)], sdst := [126] } sCls ∧ sCls.w.disp = [] ∧ sCls.w.paths = [] ∧ sCls.w.activeMask 0 ≠ 0 ∧ sCls.W ≤ 64 ∧
      targetBad sCls 0x200800 true (some 1) = none ∧ (∀ L ∈ List.range 16, (sCls.w.lane 4 L).toNat < 1) ∧
      ∃ accs, checkElems sCls sCls.w .load false ((List.range 16).map fun L => (L, 0x310000, 8)) = .ok accs ∧ accs ≠ []) ∧
    (classTable sCls 1).toOption = some (0x310000, 1) ∧
    (Ready { vsrc := [(4, false)], sdst := [126] } sNone ∧ sNone.w.disp = [] ∧ sNone.w.activeMask 0 = 0) ∧
    (sA.w.inv = none ∧ Ready { ssrc := [(126, false)] } sA ∧ (sA.w.rdS 126).toNat < 2 ^ 56 ∧ targetBad sA (sA.w.rdS 126).toNat false none = none) ∧
    (let s := withW sA fun w => w.wrS 126 0x100000000000000#64
     Ready { ssrc := [(126, false)] } s ∧ 2 ^ 56 ≤ (s.w.rdS 126).toNat) ∧
    (let s := withW sA fun w => { w.wrS 126 1 with p := { w.p with inH := true } }
     s.w.inv = none ∧ s.w.disp = [] ∧ Ready { ssrc := [(126, false)] } s ∧ s.w.p.inH = true ∧ (s.w.rdS 126).toNat / 2 * 2 = 0) ∧
    (let s := withW sA fun w => { w with disp := [dispA] }
     Ready { ssrc := [(126, false)] } s ∧ dispA.ret = (s.w.rdS 126).toNat / 2 * 2 ∧ dispA.rem &&& ~~~dispA.grp = 0 ∧
       targetBad s (s.w.rdS 126).toNat false none = none) :=
  ⟨⟨by unfold Ready Issues; decide +kernel, by decide +kernel, by decide +kernel, by decide +kernel, by decide +kernel, by decide +kernel, by decide +kernel,
    exists_ok (by decide +kernel)⟩, by decide +kernel, by unfold Ready Issues; decide +kernel, by unfold Ready Issues; decide +kernel, by unfold Ready Issues; decide +kernel, by unfold Ready Issues; decide +kernel, by unfold Ready Issues; decide +kernel⟩
/-- A table of two words: lanes 0 to 7 name the header at 0x200800 and lanes 8 to 15 the one at 0x200A00. -/
def twoVec : List Lane := List.replicate 8 0 ++ List.replicate 8 1
def sCls2 : State :=
  { (withW sCls fun w => { w with vregs := w.vregs.put 4 { lanes := twoVec } }) with
    mem := ((code memCls 0x200A00 0xA008000004001101#64).writeN 0x308018 4 2).writeN 0x310008 8 0x200A00 }
/-- The dispatch after the CALLI has served lanes 0 to 7. -/
def dispB : Disp := { dispA with rem := 0xFFFF, grp := 0xFF, va := twoVec }
def sDisp2 : State := withW sCls2 fun w => { w with disp := [dispB] }
def tableWord (s : State) (x : Acc) : Nat := readPhys s x.dom x.addr 8 % 2 ^ 56 / 2 * 2
/-- A group smaller than the active lanes; RET with lanes left; RET to another address with an entry pending. -/
theorem witness_IndirectGroups :
    (Ready { vsrc := [(4, false)], sdst := [126] } sCls2 ∧ sCls2.w.disp = [] ∧ sCls2.w.paths = [] ∧ sCls2.w.activeMask 0 = 0xFFFF ∧
      (classTable sCls2 1).toOption = some (0x310000, 2) ∧ (∀ L ∈ List.range 16, (sCls2.w.lane 4 L).toNat < 2) ∧
      targetBad sCls2 0x200800 true (some 1) = none ∧
      ((checkElems sCls2 sCls2.w .load false ((List.range 16).map fun L => (L, (0x310000 + 8 * (sCls2.w.lane 4 L).toNat) % 2 ^ 64, 8))).toOption.map
        fun l => (l.map (tableWord sCls2), l.all fun x => !sCls2.memPoison.contains (x.addr / 64) && !ownWrite sCls2.w false x.addr 8)) =
          some (List.replicate 8 0x200800 ++ List.replicate 8 0x200A00, true)) ∧
    (sDisp2.w.inv = none ∧ Ready { ssrc := [(126, false)] } sDisp2 ∧ dispB.ret = (sDisp2.w.rdS 126).toNat / 2 * 2 ∧
      dispB.rem &&& ~~~dispB.grp = 0xFF00 ∧ (classTable sDisp2 1).toOption = some (0x310000, 2) ∧
      targetBad sDisp2 0x200A00 true (some 1) = none ∧
      ((checkElems sDisp2 sDisp2.w .load false ((List.range' 8 8).map fun L => (L, 0x310008, 8))).toOption.map (·.map (tableWord sDisp2))) =
        some (List.replicate 8 0x200A00)) ∧
    (let s := withW sA fun w => { w with disp := [{ dispA with ret := 0x200800 }] }
     s.w.inv = none ∧ Ready { ssrc := [(126, false)] } s ∧ ({ dispA with ret := 0x200800 } : Disp).ret ≠ (s.w.rdS 126).toNat / 2 * 2 ∧
       targetBad s 0x200400 false none = none) := by
  unfold Ready Issues; decide +kernel

def pathB : Path := { pathA with lanes := 0xFF00, exec := 0xFF00, tags := [(0x200000, 0x200000)] }
/-- Two paths of one SPLIT whose reconvergence point is the block with the JOIN. -/
def sTwo : State := withW sA fun w => { w with p := { pathA with lanes := 0xFF, exec := 0xFF, tags := [(0x200000, 0x200000)] }, paths := [(1, pathB)] }
/-- One state for every branch: taken and not, to a header and to no header; CALL to an ENTRY header. -/
theorem witness_Branches :
    (Ready { ssrc := [(2, true)] } sA ∧ Ready {} sA ∧ sA.w.rdS 2 ≠ 0 ∧ sA.w.rdS 9 = 0 ∧ targetBad sA (Stmt.cAddr sA.w 0x200) false none = none ∧
      targetBad sA (Stmt.cAddr sA.w 4) false none = some { code := 2, taddr := 0x200008 }) ∧
    (Ready { sdst := [126] } sA ∧ targetBad sA (Stmt.cAddr sA.w 0x200) true none = none ∧
      targetBad sA (Stmt.cAddr sA.w 4) true none = some { code := 2, taddr := 0x200008 }) ∧
    (Stmt.someActive sHalf.w 0 true ∧ ¬ Stmt.someActive sNone.w 0 true) := by
  refine ⟨by unfold Ready Issues; decide +kernel, by unfold Ready Issues; decide +kernel, ⟨0, by decide +kernel, by decide +kernel, by decide +kernel⟩, ?_⟩
  rintro ⟨L, -, h, -⟩
  exact absurd h (by rw [show sNone.w.p.exec = 0#64 from rfl]; simp)
/-- The same with the sibling arrived at the JOIN of the block. -/
def sTwoIn : State := { sTwo with w := { sTwo.w with paths := [(1, { pathB with arrived := some 0x200000 })] } }
theorem witness_SplitAndJoin :
    (Ready {} sA ∧ Hdr.reconv sA.w.p.hdr.word ≠ 0 ∧ targetBad sA (reconv sA.w) false none = none ∧ sA.w.disp = [] ∧ sA.w.p.tags.length < Config.tagCap ∧
      sA.w.p.lanes &&& sA.w.rdM 1 = 0 ∧ sA.w.p.lanes &&& ~~~(sA.w.rdM 0) = 0 ∧ sA.w.p.lanes &&& sA.w.rdM 0 ≠ 0) ∧
    (sHalf.w.p.lanes &&& sHalf.w.rdM 0 ≠ 0 ∧ sHalf.w.p.lanes &&& ~~~(sHalf.w.rdM 0) ≠ 0 ∧ sHalf.w.freePath = some 1) ∧
    (let s := withW sHalf fun w => { w with paths := (List.range 7).map fun i => (i + 1, pathB) }
     s.w.freePath = none) ∧
    (sA.w.p.tags = [] ∧ sTwo.w.p.tags = (0x200000, 0x200000) :: [] ∧ (0x200000 : Nat) = sTwo.w.p.hdr.addr ∧ sTwo.w.paths = [(1, pathB)] ∧ (1 : Nat) ≠ sTwo.w.pid ∧
      pathB.tags.head? = some (0x200000, 0x200000) ∧ pathB.arrived = none) ∧
    (Ready {} sTwoIn ∧ sTwoIn.w.p.tags = (0x200000, 0x200000) :: [] ∧ sTwoIn.w.paths = [(1, { pathB with arrived := some 0x200000 })] ∧
      sTwoIn.w.p.hdr.addr = 0x200000) ∧
    (let s := withW sA fun w => { w with p := { w.p with tags := [(0x200000, 0x200000)] } }
     Ready {} s ∧ s.w.paths = []) ∧
    (let s := withW sA fun w => { w with p := { w.p with tags := [(0x200000, 0x200400)] } }
     Ready {} s ∧ (0x200400 : Nat) ≠ s.w.p.hdr.addr) := by
  unfold Ready Issues; decide +kernel
/-- One armed breakpoint of a session bound to the warp's partition. -/
def sBp : State := { (withW sA fun w => { w with baton := none }) with io := { sA.io with perch := { part := 0, bps := [0x8000000000200008] } } }
theorem witness_TrapsAndExits :
    bpArmed sA sA.w = false ∧ (bpArmed sBp sBp.w = true ∧ sBp.w.real = true ∧ sBp.w.smode = false ∧ sBp.w.park = none ∧ sBp.w.baton = none) ∧
    (let s := { (withW sBlock fun w => { w with fsucc := 1 }) with io := sBp.io }
     bpArmed s s.w = true ∧ s.w.real = true ∧ s.w.smode = false ∧ s.w.park = none ∧ s.w.baton = some 0 ∧
       receiver s s.w.core s.w.idx = some 1 ∧ Stmt.mate s 1 = some (mateA 1)) ∧
    (let s := { sA with io := sBp.io }
     bpArmed s s.w = true ∧ s.w.baton = some 0 ∧ receiver s s.w.core s.w.idx = none) ∧
    sA.w.lastSite = none ∧ (sA.w.real = true ∧ sA.w.paths = [] ∧ Ready {} sA ∧ Stmt.NoTrace sA) ∧
    (Ready { ssrc := [(10, false)] } sBlock ∧ sBlock.w.baton = some 0 ∧ sBlock.w.park = none ∧ (sBlock.w.rdS 10).toNat ≠ sBlock.w.idx ∧
      (sBlock.w.rdS 10).toNat < sBlock.w.id.nwarps ∧ Stmt.mate sBlock 1 = some (mateA 1) ∧ (mateA 1).eligible = true) ∧
    (sTwo.w.paths ≠ [] ∧ Ready {} sTwo) := by
  unfold Ready Issues Stmt.NoTrace; decide +kernel

/-- INV v20, v22, v10 at 0x200008 and CALL +0x200 parcels, the last of the block. -/
def invOps : InvOps := ⟨20, 22, 10, false, 12, 0, 40, false, false⟩
def sInv : State := { sA with mem := code (code sA.mem 0x200008 0x86014160A0C00A00#64) 0x200010 0x8160000000000200#64 }
def invRun : InvRun :=
  { o := invOps, pc := 0x200008, hdr := ⟨0x200000, hdrWord⟩, target := 0x200400, ret := 0x200018, exec0 := 0xFFFF, active := 0xFFFF, ph := .lo, dec := false, lu := false,
    y := [], m := [], flo := [], fhi := [], live := 0xFFFF, run := 0xFFFF, n := 1 }
theorem witness_InverseRuns :
    invCall sA = none ∧
    (invCall sInv = some 0x200 ∧ (∀ r ∈ [invOps.x, invOps.x + 1, invOps.y, invOps.tgt], sInv.w.portOf r = none) ∧ sInv.w.full = true ∧
      targetBad sInv 0x200400 true none = none ∧ Stmt.cAddr sInv.w 0x200 / 2 * 2 = 0x200400 ∧ (headerAt sInv sInv.w 0x200400).toOption = some (some hdrWord) ∧
      Hdr.mono hdrWord = true ∧ Ready (invUse sInv.w invOps) sInv ∧ sInv.w.activeMask 0 ≠ 0 ∧
      sInv.w.invValid = false ∧ sInv.W ≤ 64 ∧ sInv.w.activeMask 1 = 0) ∧
    Hdr.mono 0xA008000004000100#64 = false ∧
    (let s := withW sA fun w => { w with inv := some { invRun with ph := .fin } }
     s.w.inv = some { invRun with ph := .fin }) ∧
    (let s := withW sA fun w => { w with inv := some invRun }
     s.w.inv = some invRun ∧ invRun.ph = .lo ∧ Ready { vsrc := [(22, false)] } s ∧ s.w.portOf 20 = none ∧ s.w.portOf 22 = none) := by
  unfold Ready Issues; decide +kernel
/-- Dictionary entries: LD.32 v8, [s20 − 64] (the spec's), VADD v2, v3, v6, SADD s9, s2, s3; a block with DICT set. -/
def sDict : State :=
  { (withW sA fun w => { w with id := { w.id with dictcount := 3 }, p := { w.p with hdr := ⟨0x200000, 0xA008000004001300#64⟩ } }) with
    cores := [(0, { (sA.core 0) with dict := [0x4000814FF8000FC0#64, 0x0000203060000000#64, 0x8200902030000000#64] })] }
theorem witness_DictionaryCodes :
    (expand sDict 15 0).toOption = some (.ld plain 128 ⟨20, none, 0xFC0, false, .none, 0⟩ .w32) ∧
    (expand sDict 1 1).toOption = some (.vadd plain 10 11 14 0 .wrap) ∧
    (expand sDict 0 2).toOption = some (.sadd plain 9 2 3) ∧
    ((3#10).toNat ≥ sDict.w.id.dictcount ∧ Hdr.dict sA.w.p.hdr.word = false ∧ (sA.core sA.w.core).dict.length ≤ (0#10).toNat) ∧
    Ready { ssrc := [(2, luA plain), (3, luB plain)], sdst := [9] } sDict := by
  unfold Ready Issues; decide +kernel

/-! ### Traps and privileged instructions -/

theorem is_ok {ε α : Type} {r : Except ε α} (h : (match r with
    | .ok _ => true
    | _ => false) = true) : ∃ x, r = .ok x := by
  match r, h with
  | .ok a, _ => exact ⟨a, rfl⟩
theorem ok_with {ε α : Type} {r : Except ε α} {P : α → Prop} [DecidablePred P] (h : (match r with
    | .ok x => decide (P x)
    | .error _ => false) = true) : ∃ x, r = .ok x ∧ P x := by
  match r, h with
  | .ok a, h => exact ⟨a, rfl, of_decide_eq_true h⟩
theorem is_error {ε α : Type} {r : Except ε α} (h : (match r with
    | .ok _ => false
    | _ => true) = true) : ∃ x, r = .error x := by
  match r, h with
  | .error a, _ => exact ⟨a, rfl⟩
theorem is_some {α : Type} {r : Option α} (h : r.isSome = true) : ∃ x, r = some x := Option.isSome_iff_exists.mp h

/-- The launch's handler at 0x200400, frames from 0x280000; TVEC there too, system frames from 0x290000. -/
def sTrapU : State := withW sA fun w => { w with id := { w.id with handler := 0x200400, spillbase := 0x280000 } }
def sTrapS : State := { sA with parts := [(0, { sA.part 0 with tvec := 0x200400 })], cores := [(0, { sA.core 0 with tframe := 0x290000 })] }
def tBlock : TrapInfo := { code := 2, taddr := 0x200008 }
def tMem : TrapInfo := { code := 0x22, taddr := 0x300000, tmask := 1 }
theorem witness_TrapEntry :
    (let s1 := trapState sTrapU tBlock
     s1.w.active = false ∧ s1.w.id.handler ≠ 0 ∧ s1.w.p.inH = false ∧ (entryHeader s1 s1.w s1.w.id.handler).toOption = some hdrWord ∧
     ∃ s2, writeWords s1 s1.w (userFrameAddr s1.w) (Stmt.frame321 s1.w tBlock) = .ok s2) ∧
    (let s1 := trapState sTrapS tMem
     s1.w.active = false ∧ ∃ s2, writeWords s1 { s1.w with smode := true } (systemFrameAddr s1 s1.w) (systemFrame s1 s1.w tMem 0 s1.ilen) = .ok s2 ∧
       (entryHeader s2 { s1.w with smode := true } ((s1.part s1.w.id.part).tvec / 2 * 2)).toOption = some hdrWord) ∧
    (let s := { sTrapS with cores := [(0, { sA.core 0 with tframe := 0x40000000 })] }
     let s1 := trapState s tMem
     s1.w.active = false ∧ ∃ c, writeWords s1 { s1.w with smode := true } (systemFrameAddr s1 s1.w) (systemFrame s1 s1.w tMem 0 s1.ilen) = .error c) ∧
    ((trapState sA tBlock).w.active = false ∧ (trapState sA tBlock).w.id.handler = 0 ∧ (trapState sA tBlock).w.id.abort = false ∧
      (trapState sA tBlock).w.real = true) ∧
    (trapState (withW sA fun w => { w with active := true }) tBlock).w.active = true ∧ Stmt.NoTrace sA :=
  ⟨⟨by decide +kernel, by decide +kernel, by decide +kernel, by decide +kernel, is_ok (by decide +kernel)⟩,
   ⟨by decide +kernel, ok_with (by decide +kernel)⟩, ⟨by decide +kernel, is_error (by decide +kernel)⟩, by decide +kernel, by decide +kernel,
   by unfold Stmt.NoTrace; decide +kernel⟩

/-- In S mode, as the supervisor's handler runs. -/
def sSup : State := { sTrapS with w := { sTrapS.w with smode := true } }
/-- The journal is full. -/
def jrec : JRec := ⟨1, 0, 0, 0, 0, 8, [], 0, 0⟩
def sFullJ : State := { sSup with io := { sSup.io with journal := { ring := List.replicate Config.journalCap jrec } } }
theorem witness_ModesAndRegisters :
    sA.w.smode = false ∧ sSup.w.smode = true ∧ Ready { sdst := [9] } sSup ∧ Ready { ssrc := [(2, true)] } sSup ∧
    (∀ n ∈ [0x0FF#12, 0x108#12, 0x10F#12, 0x114#12, 0x124#12, 0x12F#12, 0x139#12, 0x141#12],
      ¬ (0x100 ≤ n.toNat ∧ n.toNat ≤ 0x107 ∨ 0x110 ≤ n.toNat ∧ n.toNat ≤ 0x113 ∨ 0x120 ≤ n.toNat ∧ n.toNat ≤ 0x123 ∨
         0x130 ≤ n.toNat ∧ n.toNat ≤ 0x138 ∨ n.toNat = 0x140)) ∧
    (journalFull sFullJ = true ∧ Ready { ssrc := [(2, true)] } sFullJ) ∧ journalFull sSup = false ∧
    (1 ≤ (sSup.w.rdS 2).toNat % 2 ^ 16 ∧ (sSup.w.rdS 2).toNat % 2 ^ 16 < railFloor sSup (sSup.w.die / 2)) ∧
    (let v := ((sSup.w.wrS 2 152).rdS 2).toNat % 2 ^ 16
     ¬ (152 < v ∨ 1 ≤ v ∧ v < railFloor sSup (sSup.w.die / 2))) := by
  refine ⟨by decide, by decide, by unfold Ready Issues; decide +kernel, by unfold Ready Issues; decide +kernel, by simp, ⟨?_, by unfold Ready Issues; decide +kernel⟩, by decide +kernel, by decide +kernel, by decide +kernel⟩
  simp [journalFull, sFullJ]

/-- A trap with code c is active; its frame returns to 0x200010 in U mode by ACTION a, and by a LAZY's dispatch to 0x200020. -/
def trapFrame (c a : Nat) : List Word :=
  [BitVec.ofNat 64 c, 0x200008, 0, 0, 0, 0x00FF, 0, 0, 0x200020, 0xF, 0, 0, 0, 0, 0, 0,
   BitVec.ofNat 64 (a * 2 ^ 56), 0x200010, 0, 0, 0, 11, 12, 13, 14, 0, 0x200000, 0x200000, 8, 0, 0, 0]
def inTrap (c a : Nat) : State :=
  let s : State := { sSup with w := { sSup.w with active := true, trapV := 16, trapS := 32 } }
  { s with mem := memA ++ [(0x290000, BitVec.ofNat 8 c), (0x290008, 0x08), (0x29000A, 0x20), (0x290028, 0xFF), (0x290040, 0x20), (0x290042, 0x20), (0x290048, 0x0F)] ++
    (if a = 0 then [] else [(0x290087, BitVec.ofNat 8 a)]) ++ [(0x290088, 0x10), (0x29008A, 0x20), (0x2900A8, 11), (0x2900B0, 12), (0x2900B8, 13), (0x2900C0, 14),
      (0x2900D2, 0x20), (0x2900DA, 0x20), (0x2900E0, 8)] }
/-- A warp of the gang that a HALTG stops, and one a RESUMEG lets go on. -/
def mateB (i : Nat) : Warp := { wA with idx := i, baton := none }
def sGang : State := { sSup with warps := [(1, mateB 1), (2, { mateB 2 with halted := true })] }
theorem witness_TrapReturnAndHalt :
    (sSup.w.smode = true ∧ sSup.w.active = false) ∧
    (∀ e ∈ [(2, 0), (0x10, 0), (2, 1), (2, 2), (2, 4)], let s := inTrap e.1 e.2
      s.w.smode = true ∧ s.w.active = true ∧ Ready {} s ∧ readFrame s s.w = some (trapFrame e.1 e.2) ∧ s.w.real = true) ∧
    (sGang.w.smode = true ∧ Ready {} sGang ∧ Stmt.KeysOk sGang ∧ sGang.warp? 1 = some (mateB 1) ∧ (1 : Nat) ≠ sGang.w.key ∧
      (mateB 1).smode = false ∧ (mateB 1).life = .live ∧ (mateB 1).id.lid = sGang.w.id.lid) := by
  unfold Ready Issues Stmt.KeysOk; decide +kernel

/-- Warp 1 stopped by HALTG, warp 2 saved in its shadow slot, warp 3 stopped with a load outstanding, warp 4 runs. -/
def sSlots : State := { sSup with w := { sSup.w with id := { sSup.w.id with nwarps := 8 } }
                                  warps := [(1, { mateB 1 with halted := true }), (2, { mateB 2 with halted := true, shadow := true }),
                                    (3, { mateB 3 with halted := true, ops := [{ id := 0, cls := .ld, k := .load .w32 true, dst := .sca 9 }] }), (4, mateB 4)] }
def named5 (s : State) (v : Word) : State := { s with w := { s.w with sregs := s.w.sregs.put 20 { val := v } } }
def lLive : Lease := { cls := .mx, inst := 1, st := .live }
def tlbE : Tlb := ⟨0, 0, 0x300000, 4096, 0xBCF⟩
def sTlb : State := { sSup with parts := [(0, { sSup.part 0 with tlb := [tlbE, { tlbE with asid := 1 }] })] }
theorem witness_SupervisorServices :
    (Ready { ssrc := [(20, true)], sdst := [9] } (named5 sSlots 1) ∧ Ready { ssrc := [(20, false)], sdst := [9] } (named5 sSlots 2)) ∧
    (slotWarp sSlots 32 = none ∧ slotWarp sSlots 7 = none) ∧
    ((slotWarp sSlots 4).map slotStopped = some false ∧
      (slotWarp sSlots 3).map (fun w => (slotStopped w, noReads w)) = some (true, false) ∧
      (slotWarp sSlots 1).map (fun w => (slotStopped w, noReads w, w.shadow)) = some (true, true, false) ∧
      (slotWarp sSlots 2).map (fun w => (w.shadow, shrestFits sSlots w)) = some (true, true)) ∧
    Stmt.KeysOk (named5 sSlots 1) ∧
    (sSlots.lease? 0 7 = none ∧
     (let s := withLeases sSup [(1, { lLive with queue := [qZero] }), (2, { lLive with inst := 2 }), (3, { lLive with part := 1 })]
      s.lease? 0 1 = some { lLive with queue := [qZero] } ∧ lLive.part = s.w.id.part ∧ lLive.wakeAt ≤ s.now ∧
      s.lease? 0 2 = some { lLive with inst := 2 } ∧ s.lease? 0 3 = some { lLive with part := 1 })) ∧
    (gangWarp sSlots 256 = none ∧ gangWarp sSlots 8 = none ∧ (gangWarp sSlots 4).map ctlStopped = some false ∧
      (gangWarp sSlots 1).map (fun w => (ctlStopped w, w.key != sSlots.w.key)) = some (true, true)) ∧
    (Ready { ssrc := [(1, true)] } sTlb ∧ tlbUsed sTlb 0 ((sTlb.part 0).tlb.filter (tlbHit (sTlb.part 0) .va (sTlb.w.rdS 1))) = false ∧
      tlbHit (sTlb.part 0) .va (sTlb.w.rdS 1) tlbE = true ∧
      (let s : State := { sTlb with w := { sTlb.w with ops := [opSt] } }
       tlbUsed s 0 ((s.part 0).tlb.filter (tlbHit (s.part 0) .all 0)) = true)) ∧
    (Ready { ssrc := [(2, true)] } sSup ∧ (sSup.w.rdS 2).toNat < 256 ∧ 256 ≤ (sSup.w.rdS 1).toNat) ∧
    ((gangWarp sSlots 1).map (fun w => w.ops.all fun o => o.cls != .tl) = some true ∧ sSlots.w.stalled = false ∧ (sSlots.cluster 0).leases = []) ∧
    Ready { ssrc := [(2, true), (2, false)], sdst := [2], cls := some .st } sSup := by
  refine ⟨by unfold Ready Issues; decide +kernel, by decide +kernel, by decide +kernel, by unfold Stmt.KeysOk; decide +kernel, by decide +kernel, by decide +kernel,
    ?_, by unfold Ready Issues; decide +kernel, by decide +kernel, by unfold Ready Issues; decide +kernel⟩
  exact ⟨by unfold Ready Issues; decide +kernel, by decide +kernel, by decide +kernel, by decide +kernel⟩

/-! ### Happenings of cores, blocks and operations -/

/-- Warp 0 waits for a reservation it is owed; warp 1 can take its baton; warp 2's age stands at the limit. -/
def sWaitH : State := withW sA fun w => { w with wait := .header, stalled := true, owed := some (80, 80), resV := 8, resS := 8 }
def sPair : State := { (withW sA fun w => { w with fsucc := 1 }) with warps := [(1, mateB 1), (2, { mateB 2 with age := Config.rescueAge })] }
def atPath : State := { sTwo with arg := { path := 1 } }
def sParked : State := withW sA fun w => { w with park := some { name := 2, k := .read }, parkT := Config.watchdog }
/-- Warps 1 to 3 have arrived at a BSYNC that has opened; their core resumes two a wave. -/
def opened (i : Nat) : Warp := { mateB i with arrive := some ⟨.b, 0, false⟩, stalled := true }
def sWave : State := { sA with warps := [(1, opened 1), (2, opened 2), (3, opened 3)]
                               cores := [(0, { block := some { nwarps := 4, batons := 1, gen := 1 }, slope := 2 })] }
theorem witness_CoreHappenings :
    (sWaitH.blockWarps sWaitH.arg.core = [sWaitH.w] ∧ sWaitH.warp? sWaitH.w.key = some sWaitH.w ∧ waitsHeader sWaitH.w = true ∧
      sWaitH.w.entry = none ∧ headerNeed sWaitH sWaitH.w = some (80, 80) ∧ fits sWaitH sWaitH.w (80, 80) = true) ∧
    (Stmt.KeysOk sPair ∧ ∀ v ∈ sPair.allWarps, v.entry = none) ∧
    (sPair.warp? sPair.arg.warp = some sPair.w ∧ sPair.w.key = sPair.arg.warp ∧ canForce sPair.w = true ∧ (1 : Nat) ≠ sPair.w.idx ∧
      receiver (sPair.setWarp 0 { sPair.w with forced := none }) 0 0 = some 1 ∧ sPair.warp? 1 = some (mateB 1)) ∧
    (canForce sA.w = true ∧ receiver (sA.setWarp 0 { sA.w with forced := none }) 0 0 = none) ∧
    (let s := { sPair with arg := { warp := 2 } }
     s.warp? s.arg.warp = some { mateB 2 with age := Config.rescueAge } ∧ ({ mateB 2 with age := Config.rescueAge } : Warp).eligible = true) ∧
    (atPath.warp? atPath.arg.warp = some atPath.w ∧ atPath.arg.path ≠ atPath.w.pid ∧ atPath.w.paths.get? 1 = some pathB) ∧
    (let s := withW atPath fun w => { w with park := some { name := 2, k := .read } }
     s.warp? s.arg.warp = some s.w ∧ s.w.park = some { name := 2, k := .read }) ∧
    (Stmt.KeysOk sParked ∧ sParked.warp? 0 = some sParked.w ∧ sParked.w.park.isSome = true ∧ Config.watchdog ≤ sParked.w.parkT ∧
      sParked.w.isStopped = false ∧ sParked.w.life = .live) ∧
    (Stmt.KeysOk sWave ∧ sWave.io.boot = none ∧ sWave.arg.sel ≠ 1 ∧ (sWave.core 0).waveT = 0 ∧ openWaiters sWave 0 = [opened 1, opened 2, opened 3]) := by
  refine ⟨by decide +kernel, by unfold Stmt.KeysOk; decide +kernel, by decide +kernel, by decide +kernel, by decide +kernel, by decide +kernel, by decide +kernel,
    by unfold Stmt.KeysOk; decide +kernel, by unfold Stmt.KeysOk; decide +kernel⟩

/-- A launch of two gangs, two blocks each, placed on cluster 0; nothing resident yet. -/
def idL : Ident := { nwarps := 4, nblocks := 2, ngangs := 2, entry := 0x200000, tncount := 8 }
def launchL : Launch := { id := idL, stage := .running, spadpg := 4, batons := 2, tiles := 8, ranks := [⟨0, 0, 0, 2⟩], next := [(0, 2)] }
def sIdle : State :=
  { w := {}, launches := [(0, launchL)], gangs := [(0, { tncount := 8 }), (1, { gang := 1, tnbase := 8, tncount := 8 })]
    parts := [(0, { dies := [0], domains := [0], vdevs := [0, 1] })], mem := memA
    io := { frames := [(1, (0, 0))], ready := true, rails := [{ steps := 128, target := 128 }, {}, {}], queues := [(0, { size := 4, enable := true, qtail := 1 })] } }
/-- A block of one warp that has exited; one of a warp asked to stop; one whose warp has stopped for a pre-emption; one out of time. -/
def wL : Warp := { wA with id := { idL with gang := 0 } }
def resident (w : Warp) (pre : Option Preempt) (left : Nat) : State :=
  { sIdle with w := w, gangs := [(0, { tncount := 8, started := 1 })]
               cores := [(0, { block := some { nwarps := 1, batons := 1, spadpg := 4 }, pre := pre, left := left, sp := [(0, 7)] })] }
def sOver : State := resident { wL with life := .exited, baton := none, lctd := 9 } none 0
def sStop : State := resident { wL with stopReq := true, baton := none } (some {}) 5
/-- Asked to stop after it has started its element reads. -/
def sReads : State := withW sStop fun w => { w with p := { w.p with stage := some ⟨w.p.pc, 0, true, [], [], 0⟩ } }
def sStopped : State := resident { wL with stopped := true } (some {}) 5
def sLateC : State := resident { wL with stopped := true } (some { entered := true }) 0
theorem witness_BlocksAndPreemption :
    (blockDue sIdle 0 = true ∧ gangToStart sIdle 0 = some (0, { tncount := 8 }) ∧ freeCore sIdle 0 = some 0 ∧ sIdle.w.real = false ∧
      (sIdle.launch 0).id.dictcount = 0 ∧ (sIdle.part (sIdle.launch 0).part).held = false) ∧
    (retireDue sOver 0 = true ∧ (sOver.core 0).block = some { nwarps := 1, batons := 1, spadpg := 4 } ∧
      sOver.gangs.get? (State.gangKey 0 0) = some { tncount := 8, started := 1 } ∧ ¬ ((1 : Nat) = (sOver.launch 0).id.nblocks)) ∧
    (sStop.warp? 0 = some sStop.w ∧ sStop.w.key = 0 ∧ sStop.w.stopReq = true ∧ sStop.w.smode = false ∧ sStop.w.life = .live ∧ sStop.w.inv = none ∧
      sStop.w.holding = false ∧ startedReads sStop.w = false) ∧
    (sReads.warp? 0 = some sReads.w ∧ startedReads sReads.w = true ∧ safePoint (sReads.focus 0) = false) ∧
    (Stmt.KeysOk sStopped ∧ handlerDue sStopped 0 = true ∧ lowestLive sStopped 0 = some sStopped.w) ∧
    (Stmt.KeysOk sLateC ∧ forcedDue sLateC 0 = true ∧ coreQuiet sLateC 0 = true ∧ (∀ w ∈ sLateC.blockWarps 0, w.life ≠ .live ∨ preStopped w = true) ∧
      (sLateC.core 0).block = some { nwarps := 1, batons := 1, spadpg := 4 } ∧
      ∀ e ∈ (sLateC.cluster 0).leases, e.2.part ≠ (sLateC.launch 0).part) := by
  unfold Stmt.KeysOk; decide +kernel

/-- Warp 0 with one outstanding operation. -/
def oneOp (o : Op) : State := withW sA fun w => { w with ops := [o], opNext := 1, sregs := w.sregs.put 9 { val := 0, pend := some 0 }
                                                         vregs := w.vregs.put 9 { lanes := lanesOf 0, pend := some 0 } }
def accG : Acc := { lane := 0, va := 0x300000, addr := 0x300000, n := 4, home := 48 }
def oLd : Op := { id := 0, cls := .ld, k := .load .i8 true, dst := .sca 9, accs := [{ accG with n := 1 }] }
def oLdV : Op := { id := 0, cls := .ld, k := .load .i16 false, dst := .vec 9 false, accs := [{ accG with n := 2, val := some 0xFFFE }, { accG with lane := 2, n := 2, val := some 7 }] }
def oStm : Op := { id := 0, cls := .ld, k := .stream 4, dst := .stage, accs := [{ accG with val := some 1 }] }
def sStage : State := withW (oneOp oStm) fun w => { w with p := { w.p with stage := some { pc := 0x200008, op := 0, arrived := false, ports := [(0, lanesOf 0, [])], pos0 := [], exh0 := 0 } } }
def oStG : Op := { id := 0, cls := .st, k := .store, accs := [{ accG with data := 0xAABBCCDD }] }
def oStS : Op := { oStG with sp := true, accs := [{ accG with va := 8, addr := 8, data := 0xAABBCCDD }] }
def oDone (k : OpK) (d : Dst) : Op := { id := 0, cls := .st, k := k, dst := d, accs := [{ accG with applied := true, at' := 6 }] }
/-- The line of the store is held back until chain time 200. -/
def sHeld : State := { oneOp oStG with horizon := [(0x300000 / 64, 200)] }
theorem witness_Completions :
    (let s := oneOp oLd
     Stmt.Only s s.w oLd ∧ Stmt.Fresh s s.w oLd { accG with n := 1 } ∧ s.w.life = .live) ∧
    (let s := oneOp oLdV
     Stmt.Only s s.w oLdV ∧ oLdV.port.1 = false ∧ s.w.portOf 9 = none ∧ s.w.W ≤ 64 ∧ oLdV.accs.Pairwise (fun x y => x.lane ≠ y.lane) ∧
     ∀ a ∈ oLdV.accs, a.val = some (if a.lane = 0 then 0xFFFE else 7) ∧ a.bad = false ∧ a.lane < s.w.W) ∧
    (Stmt.Only sStage sStage.w oStm ∧ (∀ a ∈ oStm.accs, a.val.isSome = true) ∧ ∃ st, sStage.w.p.stage = some st ∧ st.op = oStm.id) ∧
    (let s := oneOp oStS
     Stmt.Only s s.w oStS ∧ s.arg.warp ≠ agentKey ∧ s.arg.unit = 0 ∧ Stmt.Fresh s s.w oStS { accG with va := 8, addr := 8, data := 0xAABBCCDD }) ∧
    (let s := oneOp oStG
     Stmt.Only s s.w oStG ∧ Stmt.Fresh s s.w oStG { accG with data := 0xAABBCCDD } ∧ Stmt.KeysOk s ∧ (∀ v ∈ s.allWarps, v.key ≠ s.w.key → v.ops = []) ∧
     s.ext = [] ∧ mappedReg s 0x300000 = none ∧ s.horizon.getD (0x300000 / 64) 0 ≤ s.now ∧ sameKey s 0 (0x300000 / 64) = true) ∧
    (Stmt.Only sHeld sHeld.w oStG ∧ sHeld.now < sHeld.horizon.getD (0x300000 / 64) 0) ∧
    (let o := oDone .store .none
     Stmt.Only (oneOp o) (oneOp o).w o ∧ ∀ a ∈ o.accs, a.applied = true) ∧
    (let o := oDone (.stcon true 9) (.sca 9)
     Stmt.Only (oneOp o) (oneOp o).w o ∧ ∀ a ∈ o.accs, a.applied = true) ∧
    (let o : Op := { id := 0, cls := .st, k := .aszrec 5 6, dst := .sca 9 }
     Stmt.Only (oneOp o) (oneOp o).w o ∧ journalFull (oneOp o) = false ∧ (oneOp o).io.journal.buffer = [] ∧ (oneOp o).w.id.part ≠ 0xFF) ∧
    (let o : Op := { id := 0, cls := .st, k := .publish 0 0, dst := .sca 9 }
     let s := { oneOp o with io := sWin.io }
     Stmt.Only s s.w o ∧ s.io.windows.get? 0 = some { va := 0x300000, len := 1, ctr := 64 }) := by
  refine ⟨by unfold Stmt.Only Stmt.Fresh; decide +kernel, by unfold Stmt.Only; decide +kernel,
    ⟨by unfold Stmt.Only; decide +kernel, by decide +kernel, _, rfl, rfl⟩, by unfold Stmt.Only Stmt.Fresh; decide +kernel,
    by unfold Stmt.Only Stmt.Fresh Stmt.KeysOk; decide +kernel, by unfold Stmt.Only; decide +kernel, by unfold Stmt.Only; decide +kernel,
    by unfold Stmt.Only; decide +kernel, by unfold Stmt.Only; decide +kernel, by unfold Stmt.Only; decide +kernel⟩

/-! ### Tiles, engines and the front end -/

def tileOp (k : OpK) (d : Dst) (tag : Nat) : Op := { id := 0, cls := .tl, k := k, dst := d, name := 2, tag := tag }
def withOp (s : State) (o : Op) : State := withW s fun w => { w with ops := [o], opNext := 1, vregs := w.vregs.put 9 { lanes := lanesOf 0, pend := some 0 } }
def row64 : List Byte := (List.range 64).map fun i => BitVec.ofNat 8 i
def sAcc : State := withOp sFillW (tileOp (.twrite 3 row64) .none 1)
def sAccS : State := withOp sSealed (tileOp (.twrite 3 row64) .none 1)
def sRdT : State := withOp (withTile sA 2 { st := .ready, defc := 1, used := true, reads := 1, data := [(192, 5)] }) (tileOp (.tread 3) (.vec 9 false) 1)
def at2 (s : State) : State := { s with arg := { cluster := 0, key := 2 } }
theorem witness_TileHappenings :
    (Stmt.Only sAcc sAcc.w (tileOp (.twrite 3 row64) .none 1) ∧
      let t0 := sAcc.tile 0 2
      t0.st = .filling ∧ t0.defc = 1 ∧ t0.orphan = false ∧ t0.parked = [] ∧ t0.sealP = false) ∧
    (Stmt.Only sAccS sAccS.w (tileOp (.twrite 3 row64) .none 1) ∧ (sAccS.tile 0 2).sealP = true ∧ (sAccS.tile 0 2).writes = 1 ∧
      (sAccS.tile 0 2).st = .filling ∧ (sAccS.tile 0 2).defc = 1) ∧
    (Stmt.Only sRdT sRdT.w (tileOp (.tread 3) (.vec 9 false) 1) ∧ sRdT.w.life = .live ∧ sRdT.w.park = none ∧ sRdT.w.parks = [] ∧ (tileOp (.tread 3) (.vec 9 false) 1).port.1 = false ∧ sRdT.w.portOf 9 = none ∧ sRdT.w.W ≤ 64) ∧
    (let s := at2 (withTile sA 2 { st := .draining, defc := 1, used := true, data := [(0, 1)] })
     (s.tile s.arg.cluster s.arg.key).st = .draining ∧ (s.tile s.arg.cluster s.arg.key).reads = 0 ∧ ∀ g ∈ s.gangs.vals, g.newWait = []) ∧
    (let s := at2 (withTile sA 2 { st := .filling, defc := 1, used := true, orphan := true })
     (s.tile s.arg.cluster s.arg.key).st = .filling ∧ (s.tile s.arg.cluster s.arg.key).orphan = true ∧ (s.tile s.arg.cluster s.arg.key).writes = 0) := by
  unfold Stmt.Only; decide +kernel

/-- One lease under handle 1, which the happening names. -/
def sLease (l : Lease) : State := { withLeases { sA with tick := 100 } [(1, l)] with arg := { cluster := 0, key := 1 } }
def qFill : QCmd := { warp := 0, op := 0, c := .fill true false, regs := [1025, 0x40, 8, 0x1122334455667788], dst := [{ lane := 0, va := 64, addr := 64, n := 8 }] }
def qBcast : QCmd := { warp := 0, op := 0, c := .bcast 3 false, regs := [3073, 0, 0, 16, 0, 0] }
/-- A request of a better class has waited out its patience while lesser leases hold every DM instance. -/
def sOld : State :=
  let s := { sTaken with tick := 10000, warps := [(5, { wA with idx := 5, baton := none })] }
  { s with clusters := [(0, { s.cluster 0 with queue := [{ req5 with prio := 1 }] })] }
theorem witness_EngineHappenings :
    (let l : Lease := { st := .waking, wakeAt := 200 }
     (sLease l).lease? 0 1 = some l ∧ l.wakeAt ≤ (sLease l).now ∧ (sLease l).arg.ok = true) ∧
    (let l : Lease := { st := .evicted, stopping := true }
     l.queue = [] ∧ ((sLease l).cluster 0).lost = []) ∧
    (let l : Lease := { cls := .cv, st := .vacating }
     l.queue = [] ∧ l.cls ≠ .mx ∧ parkedCmds (sLease l) 0 1 = 0) ∧
    (lLive.st ≠ .evicted ∧ lLive.wakeAt ≤ (sLease lLive).now ∧ lLive.queue = []) ∧
    (let l : Lease := { lLive with queue := [qZero] }
     l.st = .live ∧ qZero.c = .zero 0 ∧ qZero.aborted = false ∧ qZero.worked = false ∧ qZero.bar = none ∧ earlierOnArray (sLease l) 0 1 qZero = false) ∧
    (qFill.c = .fill true false ∧ qFill.aborted = false ∧ qFill.worked = false ∧ qFill.bar = none ∧ qFill.src = [] ∧ ∃ a, qFill.dst = [a] ∧ a.n = 8) ∧
    (({ cls := .cl, st := .live, queue := [qBcast] } : Lease).cls = .cl ∧ qBcast.c = .bcast 3 false ∧ qBcast.worked = false ∧ qBcast.bar = none) ∧
    ((sOld.cluster sOld.arg.cluster).leases.wf ∧ ∃ v, evictFor sOld sOld.arg.cluster = some v ∧
      ∃ l, sOld.lease? 0 1024 = some l ∧ (l.cls, l.inst) ∈ v ∧ l.holds = true) :=
  ⟨by decide +kernel, by decide +kernel, by decide +kernel, by decide +kernel, by decide +kernel,
   ⟨by decide +kernel, by decide +kernel, by decide +kernel, by decide +kernel, by decide +kernel, _, rfl, by decide⟩, by decide +kernel,
   by decide +kernel, [(.dm, 0)], by decide +kernel, ⟨{ cls := .dm, inst := 0, st := .live }, by decide +kernel, by decide, by decide⟩⟩

/-- A good launch record of one gang of four warps of 16 lanes, and one whose version is no 1. -/
def recGood : List Word := [0x200000, 0, 0, 0, 0, 0, 0, 0, 0, 0, 0, 0, 0x0100000001610410#64, 0x0400000000000001#64, 0x20402000, 0]
def putRec (s : State) (a : Nat) (r : List Word) : State :=
  { s with mem := ((List.range 16).zip r).foldl (fun m e => m.writeN (a + 8 * e.1) 8 e.2.toNat) s.mem }
def sQ : State :=
  { sIdle with launches := [], gangs := [], parts := [(0, { sQuota.part 0 with vdevs := [0] })]
               io := { sIdle.io with queues := [(0, { qbase := 0x310000, size := 2, enable := true, qtail := 5, qhead := 4 }), (1, { enable := true })] } }
def sGood : State := putRec sQ 0x310000 recGood
def sBad : State := putRec sQ 0x310000 (setAt recGood 12 0)
def lWait : Launch := { launchL with stage := .waiting, waitaddr := 0x300000, waitval := 5 }
def sWaitL (v a : Nat) : State :=
  { sIdle with launches := [(0, { lWait with waitaddr := a })], mem := memA.writeN 0x300000 8 v }
theorem witness_QueueHappenings :
    ((queue sQ 0).qhead < 2 ^ 32 ∧ (queue sQ 0).size ≤ 12 ∧ (8 : Nat) = ((queue sQ 0).qhead + 4) % 2 ^ 32 ∧ (4 : Nat) ≤ 2 ^ (queue sQ 0).size ∧
      ∀ n, n ≤ 2 ^ (queue sQ 0).size → (9 : Nat) ≠ ((queue sQ 0).qhead + n) % 2 ^ 32) ∧
    (sQ.io.ready = true ∧ (queue sQ 0).part ∉ sQ.io.enBarred) ∧
    (let s := { sQ with arg := { addr := 0x10000, unit := 1 } }
     s.arg.addr = 0x10000 + 64 * 0 ∧ ∃ x, s.io.queues.get? 0 = some x ∧ s.arg.unit = x.vdev + 1) ∧
    (let s := { sQ with arg := { addr := 0x1010 + 8 * 29, unit := 0 } }
     s.arg.addr = 0x1010 + 8 * 29 ∧ s.io.mbox.args.length = 30) ∧
    (recordDue sGood 0 = true ∧ readWords sGood (partAgent sGood 0 0 true) .load (0x310000 + 128 * (4 % 2 ^ 2)) 16 = .ok recGood ∧
      refusal (setQueue sGood 0 { queue sGood 0 with qhead := 5 }) 0 0 recGood = none ∧ sGood.io.replay = none) ∧
    (recordDue sBad 0 = true ∧ refusal (setQueue sBad 0 { queue sBad 0 with qhead := 5 }) 0 0 (setAt recGood 12 0) = some 1) ∧
    (queue sQ 1).qhead = (queue sQ 1).qtail ∧
    ((sWaitL 7 0x300000).launches.get? 0 = some lWait ∧ readVirt (sWaitL 7 0x300000) (partAgent (sWaitL 7 0x300000) 0 0 false) .load 0x300000 8 = .ok 7 ∧
      readVirt (sWaitL 3 0x300000) (partAgent (sWaitL 3 0x300000) 0 0 false) .load 0x300000 8 = .ok 3 ∧
      readVirt (sWaitL 3 0x40000000) (partAgent (sWaitL 3 0x40000000) 0 0 false) .load 0x40000000 8 = .error 0x04) := by
  refine ⟨by decide +kernel, by decide +kernel, ⟨by decide +kernel, _, rfl, by decide⟩, by decide +kernel, ⟨by decide +kernel, ?_, by decide +kernel, by decide +kernel⟩,
    by decide +kernel, by decide +kernel, by decide +kernel, ?_, ?_, ?_⟩
  · have h : (readWords sGood (partAgent sGood 0 0 true) .load (0x310000 + 128 * (4 % 2 ^ 2)) 16).toOption = some recGood := by decide +kernel
    match e : readWords sGood (partAgent sGood 0 0 true) .load (0x310000 + 128 * (4 % 2 ^ 2)) 16, h with
    | .ok l, h => exact congrArg Except.ok (Option.some.inj h)
  all_goals rfl

/-- A launch that is ready to place its second gang; one that runs and whose gangs have ended, with and without its last write visible. -/
def sPlace : State :=
  { sIdle with launches := [(0, { launchL with stage := .ready, next := [(0, 1)] })], gangs := [(0, { tncount := 8, started := 2 })]
               parts := [(0, quotaPart)] }
def sEnd (lct : Nat) : State := { sIdle with launches := [(0, { launchL with ended := 2, lctd := lct, aborted := true })], tick := 50 }
def sDone : State := { sIdle with launches := [(0, { launchL with stage := .ended, status := 2, sigen := true, doneAt := some 10 })], tick := 50 }
theorem witness_PlacementAndEnd :
    (placeable sPlace 0 = some { launchL with stage := .ready, next := [(0, 1)] } ∧
      rankOf sPlace { launchL with stage := .ready, next := [(0, 1)] } 0 = some (0, ⟨0, 0, 0, 2⟩) ∧
      takes sPlace { launchL with stage := .ready, next := [(0, 1)] } 0 = true) ∧
    ((sEnd 99).launches.get? 0 = some { launchL with ended := 2, lctd := 99, aborted := true } ∧ launchL.sigen = false ∧ launchL.stage = .running ∧
      ownGangs (sEnd 99) launchL ≤ 2 ∧ journalFull (sEnd 99) = false ∧ 99 < (sEnd 99).now ∧ (sEnd 100).now ≤ 100) ∧
    (let l := { launchL with stage := .ended, status := 2, sigen := true, doneAt := some 10 }
     sDone.launches.get? 0 = some l ∧ signalSeen sDone l = true ∧ signalSeen sDone { launchL with stage := .ended } = true) ∧
    launchL.stage ≠ .ended := by decide +kernel

/-- A slice is over on a core with a block; the next can start; quota 0 is spent with nobody to take the trap, and with warp 0. -/
def sSlice : State := { sStop with parts := [(0, { dies := [0], domains := [0], vdevs := [0, 1] })], tick := 50 }
def sNext : State :=
  { sIdle with parts := [(0, { dies := [0], domains := [0], vdevs := [0, 1], ending := true })]
               launches := [(0, launchL), (1, { launchL with lid := 1, vdev := 1 })], gangs := [(0, { tncount := 8 }), (1, { lid := 1, away := true })]
               cores := [(0, { away := true })] }
def spent : Part := { dies := [0], domains := [0], vdevs := [0], lease := ⟨1, 0⟩, launches := ⟨1, 0⟩ }
def sSpent : State := { sIdle with parts := [(0, spent)] }
def sSpentW : State := { sA with parts := [(0, spent)] }
theorem witness_SlicesAndQuotas :
    (Stmt.KeysOk sSlice ∧ sliceOver sSlice 0 = true ∧ partCores sSlice 0 = [0]) ∧
    (sliceReady sNext 0 = true ∧ nextVdev (sNext.part 0) = 1 ∧ (1 : Nat) ≠ (sNext.part 0).cur ∧
      ((List.range 8).all fun c => ((sNext.core c).saved.get? 1).isNone) = true ∧
      (∀ cl ∈ partClusters (sNext.part 0), ∀ e ∈ (sNext.cluster cl).leases, e.2.part ≠ 0) ∧ sNext.gangs.get? 1 = some { lid := 1, away := true } ∧
      (sNext.launch 1).part = 0 ∧ (sNext.launch 1).vdev = 1 ∧ coreIn sNext 0 0 = true ∧ sNext.cores.has 0 = true) ∧
    quotaNew sQuota 0 = [] ∧
    (quotaNew sSpent 0 = [0] ∧ (∀ e ∈ sSpent.clusters, e.2.queue = []) ∧ quotaWarp sSpent 0 = none) ∧
    (Stmt.KeysOk sSpentW ∧ quotaNew sSpentW 0 = [0] ∧ (∀ e ∈ sSpentW.clusters, e.2.queue = []) ∧ quotaWarp sSpentW 0 = some sSpentW.w) ∧
    (sA.now < sA.io.windowEnd ∧ { sA with tick := 500000 }.io.windowEnd ≤ { sA with tick := 500000 }.now) := by
  unfold Stmt.KeysOk; decide +kernel

/-- Rail 0 rises, falls, holds; cluster 0 of a die at 112, 120 and 140 steps, its clock at class 2. -/
def sRail (r : Rail) : State := { sA with io := { sA.io with rails := [r, {}, {}] } }
def sClk (v p : Nat) : State := { sRail { steps := v, target := v } with clusters := [(0, { pool := p })] }
theorem witness_RailsAndClocks :
    (let r : Rail := { steps := 104, target := 105 }
     rail (sRail r) 0 = r ∧ r.hold = none ∧ r.t ≤ (sRail r).now ∧ r.steps < r.target) ∧
    (let r : Rail := { steps := 105, target := 104 }
     r.hold = none ∧ r.t ≤ (sRail r).now ∧ r.target < r.steps) ∧
    (let r : Rail := { steps := 105, target := 104, hold := some 0 }
     r.hold.isSome = true ∧ 0 ≤ (sRail r).now) ∧
    (140 ≤ (sClk 140 3).volt 0 ∧ ((sClk 139 3).cluster 0).pool = 3 ∧ (sClk 139 3).volt 0 < 140 ∧ inUse (sClk 139 3) 0 = true ∧
      inUse { sClk 139 3 with cores := [] } 0 = false ∧ (sClk 140 3).betweenCycles 0 = true ∧ (sClk 139 3).betweenCycles 0 = true ∧
      140 ≤ useFloor (sClk 140 3) 0 ∧ useFloor { sClk 140 3 with cores := [] } 0 < 140 ∧
      (sClk 140 3).clusters.has 0 = true ∧ ((sClk 140 3).cluster 0).gate = false) ∧
    (let s := { sClk 140 3 with cores := [(0, { block := some {}, slot := 1 })] }
     s.betweenCycles 0 = false) ∧
    ((sRail {}).io.rails.length = 3 ∧
      (let r : Rail := { steps := 104, target := 104, hold := some 9 }
       r.target < railTarget (sRail r) 0) ∧
      (let r : Rail := { steps := 152, target := 104, hold := some 9 }
       r.target < railTarget (sRail r) 0 ∧ railTarget (sRail r) 0 < r.steps) ∧
      (let r : Rail := { steps := 152, target := 152 }
       railTarget (sRail r) 0 < r.target)) := by decide +kernel

/-! ### The host, sessions, management -/

/-- Function 1's window 0 over the page at 0x300000, in force; one whose link 6 is closed; one whose line is held back. -/
def winA : Window := { va := 0x300000, len := 2, ctr := 64, off := 0x1000, live := some (0x300000, 2, 0x1000), part := 0, version := 1 }
def sHost : State := { sA with io := { sA.io with windows := [(0, winA)] }, arg := { unit := 1, off := 0x1008, len := 1, bytes := [7] } }
def sShut : State := { sHost with parts := [(0, { sA.part 0 with fwallow := [(0, 6, 0x10)] })] }
def sHeldW : State := { sHost with horizon := [(0x300008 / 64, 100)] }
def descA (sel va len : Nat) : State := { sHost with arg := { unit := 1, sel := sel, addr := va, len := len, off := 0x5000, val := 128 } }
def sPorts (st : Nat) : State := { sA with io := { sA.io with ports := [(3, { state := st, lanes := 3, peerPkg := 1 })] }, arg := { unit := 3, len := 2 } }
theorem witness_HostAndPorts :
    (let s := { sHost with arg := { sHost.arg with unit := 0 } }
     s.arg.unit = 0) ∧
    (sHost.arg.unit ≠ 0 ∧ sHost.io.ready = true ∧ sHost.arg.len = 1 ∧ sHost.arg.bytes = [7] ∧ windowAtOff sHost 0 0xFFF = none ∧ windowAtOff sHost 0 0x3000 = none) ∧
    (∀ s ∈ [sHost, sShut, sHeldW], Stmt.InWindow s 0x1008 winA 0xBCF 0x300008) ∧
    (hostPasses sHost 0 0x300008 = true ∧ 0x300008 / 64 ∉ sHost.memPoison ∧ sameKey sHost 0 (0x300008 / 64) = true ∧ hostPasses sShut 0 0x300008 = false ∧
      sHeldW.now < sHeldW.horizon.getD (0x300008 / 64) 0 ∧ ptePubw 0xBCF = true ∧ sHost.ext = [] ∧ sHeldW.ext = [] ∧
      lineWaits sHost (0x300008 / 64) = false ∧ sHost.horizon.getD (0x300008 / 64) 0 ≤ sHost.now) ∧
    (let s := { sHost with mem := sNoPub.mem }
     windowAtOff s 0 0x1008 = some (0, winA, 0x300008) ∧ walk s (s.part 0) 0x300008 = .leaf 0x3CF 2 ∧ ptePubw 0x3CF = false) ∧
    ((descA 1 0x301000 1).arg.sel < 64 ∧ overlaps (descA 1 0x301000 1) 0 1 0x301000 1 = true ∧ overlaps (descA 1 0x302000 1) 0 1 0x302000 1 = false ∧
      ((descA 1 0x302000 1).io.windows.getD 1 {}).len = 0) ∧
    ((port (sPorts 2) 3).state ≠ 0 ∧ (sPorts 2).arg.list = [] ∧ (sPorts 2).arg.unit < 36 ∧ (port (sPorts 1) 3).state = 1 ∧ (port (sPorts 0) 3).state = 0) := by
  refine ⟨by decide, by decide +kernel, ?_, by decide +kernel, by decide +kernel, by decide +kernel, by decide +kernel⟩
  intro s hs
  have h : (windowAtOff s (s.arg.unit - 1) 0x1008 = some (0, winA, 0x300008) ∧ walk s (s.part winA.part) 0x300008 = .leaf 0xBCF 2) ∧
      0x300008 = ptePA 0xBCF + 0x300008 % levelSize 2 := by
    have : ∀ s ∈ [sHost, sShut, sHeldW], (windowAtOff s (s.arg.unit - 1) 0x1008 = some (0, winA, 0x300008) ∧ walk s (s.part winA.part) 0x300008 = .leaf 0xBCF 2) ∧
      0x300008 = ptePA 0xBCF + 0x300008 % levelSize 2 := by decide +kernel
    exact this s hs
  exact ⟨0, 0x300008, 2, h.1.1, h.1.2, h.2⟩

/-- A session of partition 0 with its launch 0, whose warp 0 of gang 0, block 0 the command names. -/
def sessionOf (p : Perch) (s : State) : State := { s with io := { s.io with perch := { p with part := 0 } } }
def sSes : State := sessionOf {} sA
def sHold (w : Warp) : State := sessionOf {} { sA with w := w }
def wTwo : Warp := { wA with paths := [(1, pathB)] }
def bpWarp : Word := 0xC000000000200008#64
def bpPath : Word := 0x8000000000200008#64
def sBrk (b : Word) (w : Warp) : State := sessionOf { bps := [b] } { sA with w := w }
/-- Warp 0 in the saved context of virtual device 1, which does not run. -/
def sAway (w : Warp) : State := sessionOf {} { sA with w := {}, cores := [(0, { away := true, saved := [(1, { warps := [(0, w)] })] })] }
theorem witness_PerchSaved :
    (Stmt.SessionSaved (sAway wA) 0 1 0 wA ∧ Stmt.NoRing (sAway wA) ∧ wA.smode = false ∧ wA.perched = false) ∧
    (let w := { wA with smode := true }
     Stmt.SessionSaved (sAway w) 0 1 0 w) ∧
    (let w := { wA with perched := true, perchReq := true }
     Stmt.SessionSaved (sAway w) 0 1 0 w) ∧
    (let w := { wA with smode := true }
     Stmt.KeysOk (sBrk bpWarp w) ∧ (sBrk bpWarp w).warp? 0 = some w ∧ w.p.hold = false ∧ w.perchReq = false) := by
  unfold Stmt.SessionSaved Stmt.NoRing Stmt.KeysOk; decide +kernel
theorem witness_PerchStops :
    (bound sA = false ∧ bound sSes = true ∧ foreign sSes = false ∧ foreign { sSes with launches := [(0, { part := 1 })] } = true ∧
      named sSes 0 0x1000000 = none ∧ (∀ e ∈ sessionWarps (sessionOf { stopLid := 9 } sA), e.2.id.lid ≠ 9)) ∧
    (Stmt.Session sSes wA ∧ Stmt.NoRing sSes ∧ wA.smode = false ∧ Stmt.Session (sHold { wA with smode := true }) { wA with smode := true }) ∧
    (bits (0x100000 : Word) 22 20 = 1 ∧ wA.paths.get? 1 = none ∧ (1 : Nat) ≠ wA.pid ∧ Stmt.Session (sHold wTwo) wTwo ∧ wTwo.paths.get? 1 = some pathB ∧
      bits (0 : Word) 22 20 = wA.pid ∧ wA.p.hold = false ∧ wA.perched = false ∧ wA.inv = none ∧ wA.paths = []) ∧
    (let w := { wA with perched := true, p := { pathA with hold := true } }
     Stmt.Session (sHold w) w ∧ w.perched = true ∧ w.heldAll = false ∧ w.p.hold = true) ∧
    (∀ w ∈ sSes.allWarps, w.id.lid = sSes.io.perch.stopLid ∧ w.id.part = sSes.io.perch.part ∧ w.paths.wf) ∧
    (Stmt.KeysOk (sBrk bpWarp wTwo) ∧ (sBrk bpWarp wTwo).warp? 0 = some wTwo ∧ wTwo.key = 0 ∧ wTwo.isStopped = false ∧ wTwo.p.past ≠ some wTwo.p.pc ∧
      ([bpWarp].find? fun b => b.getLsbD 63 && (b.toNat % 2 ^ 56 / 2 * 2 == wTwo.p.pc)) = some bpWarp ∧
      ([bpPath].find? fun b => b.getLsbD 63 && (b.toNat % 2 ^ 56 / 2 * 2 == wTwo.p.pc)) = some bpPath) ∧
    (bpWarp.getLsbD 62 = true ∧ bpPath.getLsbD 62 = false ∧ wTwo.paths.get? 1 = some pathB ∧ pathB.hold = false) := by
  refine ⟨by decide +kernel, by unfold Stmt.Session Stmt.KeysOk Stmt.NoRing; decide +kernel, by unfold Stmt.Session Stmt.KeysOk; decide +kernel,
    by unfold Stmt.Session Stmt.KeysOk; decide +kernel, by decide +kernel, by unfold Stmt.KeysOk; decide +kernel, by decide +kernel⟩

/-- MADDR inside the partition's frame 1 and outside; rings in that frame and outside it; a core that is sampled. -/
def sMem (a : Nat) : State := { sessionOf { maddr := a } sA with arg := { val := 0x1122334455667788 } }
def sRing (v b : Nat) : State := { sessionOf { srBase := b, trBase := b } sA with arg := { val := BitVec.ofNat 64 v } }
def sSamp : State := sessionOf { smpCtl := 0x80001, smpCores := [1, 0, 0, 0, 0, 0], srBase := 0x300000 } sA
theorem witness_PerchMemory :
    (bound (sMem 0x300000) = true ∧ inFrames (sMem 0x300000) 0 0x300000 8 = true ∧ inFrames (sMem 0x400000) 0 0x400000 8 = false ∧
      0x300000 / 64 ∉ (sMem 0x300000).memPoison ∧ (sMem 0x300000).ext = [] ∧ lineWaits (sMem 0x300000) (0x300000 / 64) = false ∧
      (sMem 0x300000).horizon.getD (0x300000 / 64) 0 ≤ (sMem 0x300000).now ∧ sameKey (sMem 0x300000) 0 (0x300000 / 64) = true ∧
      (let s := { sMem 0x300000 with memPoison := [0x300000 / 64], horizon := [(0x300000 / 64, 9)] }
       0x300000 / 64 ∈ s.memPoison ∧ s.now < s.horizon.getD (0x300000 / 64) 0)) ∧
    (∀ v ∈ [0x80001, 0x140001, 0x80000], 8 ≤ bits (BitVec.ofNat 64 v) 20 16 ∧ bits (BitVec.ofNat 64 v) 20 16 ≤ 20) ∧
    (bits (0x70001 : Word) 20 16 < 8 ∧ 20 < bits (0x150001 : Word) 20 16) ∧
    ((sRing 0x80001 0x300000).arg.val.getLsbD 0 = true ∧ (sRing 0x80001 0x300000).io.perch.smpCtl.getLsbD 0 = false ∧ (sRing 1 0x300000).io.perch.trCtl.getLsbD 0 = false ∧
      (sRing 1 0x300000).memOk ∧ inFrames (sRing 1 0x300000) 0 0x300000 (2 ^ 12) = true ∧ inFrames (sRing 1 0x3FF040) 0 0x3FF040 (2 ^ 12) = false) ∧
    (sampled sSamp 0 = true ∧ sSamp.memOk ∧ sSamp.io.perch.srBase % 64 = 0 ∧ sameKey sSamp 0 (0x300000 / 64) = true ∧ readPhys sSamp 0 0x300000 8 = 0 ∧
      readPhys sSamp 0 0x300008 8 = 0 ∧ inFrames sSamp 0 0x300000 (2 ^ 12) = true) ∧ sampled sSamp 1 = false ∧
    (let s := sessionOf { smpCtl := 0x80001, smpCores := [1, 0, 0, 0, 0, 0], srBase := 0x400000 } sA
     inFrames s 0 s.io.perch.srBase (2 ^ s.io.perch.srSize) = false) := by
  unfold State.memOk; decide +kernel

/-- A command with its arguments, in a package that is ready and in RECOVERY. -/
def sCmd (a : List Nat) : State := { sQuota with io := { sQuota.io with mbox := { cmd := 0x30001, busy := true } }, arg := { list := a } }
def sRec : State := { sCmd [] with io := { (sCmd []).io with recovery := true, ready := false } }
theorem witness_MailboxCommands :
    (sA.io.mbox.busy = false ∧ sRec.io.mbox.busy = true ∧ sRec.io.recovery = true) ∧
    ((sCmd []).io.ready = true ∧ (let s := { sCmd [] with io := { (sCmd []).io with ready := false } }
      Stmt.Runs s ∧ s.io.ready = false)) ∧
    (∀ a ∈ [[1, 2, 3, 4], [0x1000, 2], [0x1001, 9], [0x1000, 1]], Stmt.Runs (sCmd a)) ∧
    ((sCmd [0x1000, 2]).io.journal.ring.length < Stmt.argN (sCmd [0x1000, 2]) 1 ∧ (sCmd []).io.journal.buffer = []) ∧
    (let s := sCmd [0, 1, 0x400000, 2]
     s.parts.has 0 = true ∧ Stmt.argN s 2 % 2 ^ 21 = 0 ∧ frameOf s 0 2 = true ∧ frameOf s 0 3 = true ∧ s.io.frames.has 2 = false ∧ s.io.frames.has 3 = false ∧
     (s.part 0).frames.limit < (s.part 0).frames.used + 2 ∧
     (let s := { s with parts := [(0, { quotaPart with frames := ⟨2, 0⟩ })] }
      (s.part 0).frames.used + 2 ≤ (s.part 0).frames.limit) ∧
     (let s := { s with parts := [(0, { quotaPart with frames := ⟨1, 0⟩ })] }
      (s.part 0).frames.limit < (s.part 0).frames.used + 2 ∧ (s.part 0).frames.used ≠ (s.part 0).frames.limit)) ∧
    (frameOf (sCmd []) 0 (96000000000 / 2 ^ 21) = false ∧ (sCmd []).parts.has 9 = false) ∧
    ((∀ k ∈ [0, 1, 2, 3, 4], quotaNew ((sCmd [0, k, 50]).setPart 0 { quotaPart with ecap := 1000000 }) 0 = []) ∧ (5 : Nat) > 4) ∧
    (bound (sCmd [0]) = false ∧ bound (sessionOf {} (sCmd [0])) = true) ∧
    (Stmt.KeysOk (sessionOf {} (sCmd [])) ∧ Stmt.NoRing (sessionOf {} (sCmd [])) ∧
      ∀ w ∈ (sessionOf {} (sCmd [])).allWarps, w.id.part = (sessionOf {} (sCmd [])).io.perch.part ∧ w.paths.wf) := by
  unfold Stmt.Runs Stmt.KeysOk Stmt.NoRing; decide +kernel

/-- One target in host memory at 0x10000, its descriptor at 0x8000; a checkpoint and a restore of partition 0 that wait for their end. -/
def hostT : Memory := (Memory.writeN [] 0x8000 8 0x10000).writeN 0x8008 8 0x1000000
def tgt : CkTarget := ⟨0x10000, 0x1000000, 0, false⟩
def sCk (a : List Nat) : State := { sCmd a with io := { (sCmd a).io with hostMem := hostT } }
def ckOf (r : Bool) : Ck := { state := 1, restoring := r, id := 5, parts := [0], targets := [tgt], start := 3 }
def sCkEnd (r : Bool) (x : SMap CkImage) : State :=
  { sIdle with io := { sIdle.io with hostMem := hostT, ck := ckOf r, ckImages := x, frames := [] }, parts := [(0, { dies := [0], ending := true })], mem := [] }
def imgA : CkImage :=
  { start := 3, parts := [0], manifest := [], units := [(0, 0, 64, shake256 [])], frames := [(1, (0, 0))], mem := [(0x200000, 9)], doms := [], cores := [], tiles := [],
    gangs := [], launches := [] }
/-- An image with its manifest where the target holds it; one whose manifest the target does not hold. -/
def imgB (m : List Byte) : CkImage := { imgA with manifest := m }
def manA : List Byte := List.replicate 112 0 ++ configDigest (sCk [])
def sRst (m : List Byte) : State :=
  { sCk [0, 0x8000, 1, 5] with io := { (sCk []).io with hostMem := hostT.put 0x10040 m, ckImages := [(5, imgB m)] } }
theorem sRst_hostMem (m : List Byte) : (sRst m).io.hostMem = hostT.put 0x10040 m := by delta sRst; dsimp only
theorem witness_restoreChecks :
    let s := sRst manA
    Stmt.Runs s ∧ s.io.ck.state ≠ 1 ∧ Stmt.CkArgs s [0] [tgt] ∧ s.io.ckImages.get? (BitVec.ofNat 64 (Stmt.argN s 3)).toNat = some (imgB manA) ∧
      restoreChecks { s with io := { s.io with ck := Stmt.ckOf s true [0] [tgt] } } (imgB manA) = true := by
  have hd : (configDigest (sCk [])).length = 64 := leBytes_length _ _
  refine ⟨⟨rfl, rfl⟩, by show (0 : Nat) ≠ 1; decide, ?_, rfl, ?_⟩
  · refine ⟨.inr ⟨by decide, rfl, rfl⟩, by decide, by decide, ?_, by decide⟩
    have e : Stmt.argN (sRst manA) 1 = 0x8000 ∧ Stmt.argN (sRst manA) 2 = 1 ∧ (sRst manA).io.hostMem = hostT.put 0x10040 manA := ⟨rfl, rfl, sRst_hostMem _⟩
    rw [e.1, e.2.1, e.2.2, readTargets, List.range_one, List.map_singleton]
    have h : ∀ c n, c + n ≤ 0x10040 → (hostT.put 0x10040 manA).readN c n = hostT.readN c n :=
      fun c n h => Memory.readN_put_below _ _ _ _ _ h
    rw [readTarget, h _ _ (by decide), h _ _ (by decide), h _ _ (by decide), h _ _ (by decide)]
    decide +kernel
  · have hb : (hostT.put 0x10040 manA).bytes 0x10040 manA.length = manA := Memory.bytes_put (by decide +kernel) _ _
    have hm : (manA.drop 112).take 64 = configDigest (sCk []) := by
      rw [manA, List.drop_left' (by simp), List.take_of_length_le (by omega)]
    have ht : ∀ s : State, s.io.hostMem = hostT.put 0x10040 manA → (targetBytes s tgt 64 manA.length == manA) = true := by
      intro s h
      rw [targetBytes, if_neg (by decide), h]
      exact beq_iff_eq.2 hb
    have h2 : ((manA.drop 112).take 64 == configDigest (sCk [])) = true := beq_iff_eq.2 hm
    unfold restoreChecks
    simp only [Bool.and_eq_true]
    exact ⟨⟨⟨⟨by decide, ht _ (by dsimp only; exact sRst_hostMem _)⟩, h2⟩, by decide +kernel⟩, by decide +kernel⟩
theorem witness_CheckpointAndRestore :
    (let s := { sRst (List.replicate 176 1) with io := { (sRst (List.replicate 176 1)).io with hostMem := hostT } }
     restoreChecks { s with io := { s.io with ck := Stmt.ckOf s true [0] [tgt] } } (imgB (List.replicate 176 1)) = false) ∧
    (Stmt.Runs (sCk [0, 0x8000, 1, 5]) ∧ (sCk [0, 0x8000, 1, 5]).io.ck.state ≠ 1 ∧ Stmt.CkArgs (sCk [0, 0x8000, 1, 5]) [0] [tgt] ∧
      Stmt.CkArgs (sCk [0xFF, 0x8000, 1, 5]) [0] [tgt]) ∧
    (∀ ps ts, ¬ Stmt.CkArgs (sCk [0, 0x8000, 65, 5]) ps ts) ∧
    (let s := { sCk [] with io := { (sCk []).io with ck := ckOf false } }
     Stmt.Runs s ∧ s.io.ck.state = 1) ∧
    ((sCk []).io.ckImages.get? (BitVec.ofNat 64 5).toNat = none ∧ (sCk []).io.ck.state ≠ 1) ∧
    (ckQuiet (sCkEnd false []) = true ∧ ckQuiet { sStop with io := { sStop.io with ck := ckOf false } } = false ∧ (ckOf false).restoring = false ∧
      (ckOf false).targets ≠ []) ∧
    (let x : SMap CkImage := [(5, imgA)]
     (sCkEnd true x).io.ck.restoring = true ∧ ckQuiet (sCkEnd true x) = true ∧ (sCkEnd true x).io.ckImages.get? 5 = some imgA ∧ (sCkEnd true x).arg.list = [] ∧
     (∀ u ∈ imgA.units, unitOk (sCkEnd true x) u = true) ∧ imgA.frames.length ≤ imgA.units.length ∧ (sCkEnd true x).memOk ∧ Memory.wf imgA.mem) := by
  refine ⟨by decide +kernel, by unfold Stmt.Runs Stmt.CkArgs; decide +kernel, ?_,
    by unfold Stmt.Runs; decide +kernel, by decide +kernel, by decide +kernel, by unfold State.memOk; decide +kernel⟩
  rintro ps ts ⟨-, -, h, -⟩
  exact absurd h (by decide)

/-- A configuration of two partitions; the same with a busy mailbox; domain 3 free to bind, domain 2 this partition's. -/
def fwA : FwCfg := { parts := [{ id := 0, p := { dies := [0], vdevs := [0] } }, { id := 1, p := { dies := [1], vdevs := [0] } }], furid := 7 }
def sFw (sel : Nat) : State := { sIdle with launches := [], gangs := [], io := { sIdle.io with fw := fwA, mbox := { busy := true } }, arg := { fw := fwA, sel := sel } }
def sKey (d act : Nat) : State :=
  { sIdle with parts := [(0, { dies := [0], domains := [2] }), (1, { dies := [1], domains := [4] })], arg := { part := 0, sel := d, val2 := act } }
/-- The start-up sequence at step n; step `fail` fails, and port 35 does not train. -/
def sBoot (n fail : Nat) : State := { arg := {}, io := { fw := fwA, ident := { bootst := n }, boot := some ⟨fail, 2 ^ 35⟩ } }
theorem witness_ResetsAndDomains :
    (∀ n ∈ [1, 2, 3, 4, 5], (sBoot n 0).io.boot = some ⟨0, 2 ^ 35⟩ ∧ (sBoot n 0).io.ident.bootst = n ∧ (0 : Nat) ≠ n) ∧
    (Stmt.Apart (sBoot 5 0).io.fw ∧ ∀ n ∈ [2, 4, 5], (sBoot n n).io.boot = some ⟨n, 2 ^ 35⟩ ∧ (sBoot n n).io.ident.bootst = n) ∧
    ((sFw 0).io.mbox.busy = true ∧ sA.io.mbox.busy = false ∧ Stmt.Apart (sFw 0).arg.fw) ∧
    (∀ e ∈ [(3, 0), (2, 1), (2, 2)], let s := sKey e.1 e.2
      released s 0 = true ∧ 1 ≤ s.arg.sel ∧ s.arg.sel < 64 ∧ (¬ ∃ e ∈ s.parts, e.1 ≠ s.arg.part ∧ s.arg.sel ∈ e.2.domains) ∧ s.arg.val2 ≤ 2 ∧
        (s.arg.val2 = 0 ∨ s.arg.sel ∈ (s.part 0).domains)) ∧
    (∃ e ∈ (sKey 4 0).parts, e.1 ≠ (sKey 4 0).arg.part ∧ (sKey 4 0).arg.sel ∈ e.2.domains) ∧
    ((sFw 0).io.ready = true ∧ (∀ e ∈ (sFw 0).cores, e.2.block = none) ∧ State.reset.io.ready = false) ∧
    (let s := { sA with arg := { fw := fwA } }
     ∃ c ∈ s.arg.fw.parts, ∃ die ∈ c.p.dies, ∃ e ∈ s.cores, e.1 / 64 = die ∧ e.2.block.isSome = true) := by
  unfold Stmt.Apart; decide +kernel

/-- Virtual device 0 at a slice boundary, with frame 1 of its own; a capture of it. -/
def sCap : State := { sIdle with vdevs := [(0, {})], launches := [], gangs := [], parts := [(0, { dies := [0], vdevs := [0] })] }
def capA : Capture := { part := 0, vdev := 0, time := 3, frames := [1], mem := [(0x200000, 9)], doms := [] }
theorem witness_CaptureAndReplay :
    (sCap.vdevs.has 0 = true ∧ atSlice sCap 0 = true ∧ replaying sCap = none ∧ sCap.memOk) ∧ sA.vdevs.has 0 = false ∧
    (let s := { sCap with io := { sCap.io with capture := some capA } }
     s.io.capture = some capA ∧ capA.recs = [] ∧ replaying s = none ∧ s.vdevs.has 0 = true ∧ atSlice s 0 = true ∧ capA.frames = framesOf s 0 ∧
     s.io.frames.wf ∧ (∀ l ∈ s.launches.vals, l.vdev ≠ 0) ∧ s.memOk ∧ Memory.wf capA.mem ∧ ∀ e ∈ capA.mem, e.1 / 2 ^ 21 ∈ capA.frames) := by
  unfold State.memOk; decide +kernel

/-! ### The step -/

/-- SADD s9, s2, s3 at the program counter of the holder of baton 0. -/
def sStep : State :=
  { (withW sA fun w => { w with id := { w.id with nwarps := 1 } }) with
    mem := code sA.mem 0x200008 0x8200902030000000#64, agenda := [.turn 0], cores := [(0, { block := some { nwarps := 1, batons := 1 } })] }
theorem witness_StepRunsDecoded :
    (sStep.due = [] ∧ sStep.agenda = .turn 0 :: []) ∧
    (Stmt.MayAct { sStep with agenda := [] } 0 sStep.w ∧
      Stmt.StandsAt (Stmt.inTurn { sStep with agenda := [] } 0 sStep.w) 0x8200902030000000#64 (.sadd plain 9 2 3)) ∧
    (let s := { sStep with agenda := [], due := [⟨.clockSwitch, {}⟩] }
     s.due = ⟨.clockSwitch, {}⟩ :: []) ∧
    (State.reset.due = [] ∧ State.reset.agenda = [] ∧ dueRow State.reset = none ∧ nextCore State.reset = none ∧
      ∀ h ∈ openRows State.reset, progress State.reset h = false) := by
  refine ⟨by decide +kernel, ⟨?_, ?_⟩, by decide +kernel, by decide +kernel⟩
  · unfold Stmt.MayAct Stmt.KeysOk; decide +kernel
  · refine ⟨by decide +kernel, by decide +kernel, by rfl, by decide +kernel, by decide +kernel, by rfl, by decide +kernel, by decide +kernel⟩
theorem witness_DecodeEncode :
    (wellFormed (.sadd plain 9 2 3) = true ∧ encodeParcels (.sadd plain 9 2 3) ≠ []) ∧ decode 0x8200902030000000#64 = .ok (.sadd plain 9 2 3) := ⟨by decide +kernel, rfl⟩
theorem witness_MemoryStaysCanonical : State.reset.memOk ∧ ∃ t, step State.reset = .next t := ⟨by unfold State.memOk; decide +kernel, _, rfl⟩

/-! ## Functions of other standards -/

/-- SHAKE256 of the empty message: the first 32 bytes, as NIST's example values for FIPS 202 give them. -/
theorem test_shake256_empty : (leBytes 32 (shake256 []).toNat).map BitVec.toNat =
    [0x46, 0xB9, 0xDD, 0x2B, 0x0B, 0xA8, 0x8D, 0x13, 0x23, 0x3B, 0x3F, 0xEB, 0x74, 0x3E, 0xEB, 0x24,
     0x3F, 0xCD, 0x52, 0xEA, 0x62, 0xB8, 0x1B, 0x82, 0xB5, 0x0C, 0x27, 0x64, 0x6E, 0xD5, 0x76, 0x2F] := by decide +kernel
/-- FIPS 197, appendix C.3: AES-256 of the block 00 11 22 ... FF under the key 00 01 02 ... 1F, and back. -/
def aesKeys : List Block16 := roundKeys (leVal ((List.range 32).map (BitVec.ofNat 8)))
def aesOut : Block16 := [0x8E, 0xA2, 0xB7, 0xCA, 0x51, 0x67, 0x45, 0xBF, 0xEA, 0xFC, 0x49, 0x90, 0x4B, 0x49, 0x60, 0x89]
theorem test_aes256 : encBlock aesKeys ((List.range 16).map (17 * ·)) = aesOut ∧ decBlock aesKeys aesOut = (List.range 16).map (17 * ·) := by
  decide +kernel

/-! ## Ill-formed terms: one for each check -/

def memBad : MemV := ⟨1, some 255, 0, false, .none, 0⟩
def memGood : MemV := ⟨1, some 2, 0, false, .none, 0⟩
def inv0 : InvOps := ⟨20, 22, 10, false, 12, 0, 40, false, false⟩
def illFormed : List Instr := [
  .cvt plain 1 2 0 (.pi 1) .f32 .rn, .cvt plain 1 2 0 .f32 (.pi 9) .rn, .pack plain 1 2 3 0 .f16 true .rn, .unpack plain 1 2 0 .i16 2,
  .ld plain 1 memBad .w32, .ld plain 255 memGood .w64, .st plain 255 memGood .w64, .st plain 1 memGood .i8, .stsc plain 1 ⟨1, 0, false, .none⟩ .i16,
  .pref plain memBad .w32, .atomAdd plain 255 memGood true, .atomCas plain 253 memGood true, .atomCas plain 255 memGood false, .redMin plain 255 memGood true,
  .fatomAdd plain 1 memBad, .fredMax plain 1 memBad]
def illFormed2 : List Instr := [
  .tdef plain (.name 1) (.pi 1), .tnew plain 0 .w32, .tnew plain 1 (.pi 9), .tstat plain 0 (.name 1), .lease plain 0 .dm false, .lease plain 1 .dm true,
  .leaset plain 1 .cv true, .vacate plain 0, .lstat plain 1 0, .dmcopy plain 0 ⟨false, false, false⟩, .dmgather plain 1 9 10 ⟨false, false, false⟩,
  .cvshape plain 0, .mxconv plain 1 0 (.pi 4) false, .passx plain 9 1 125 none, .csrwr plain 0x014 1, .csrwr plain 0x042 1, .wrpr plain 0x122 1,
  .waitc plain 0 0, .inv plain { inv0 with x := 255 }, .inv plain { inv0 with y := 21 }, .inv plain { inv0 with tgt := 20 },
  .inv plain { inv0 with tgt := 22 }, .inv plain { inv0 with mode1 := true, tol := 1 }, .unassignedOpcode 0x8200902030000000]
theorem test_ill_formed : illFormed.all (fun i => !wellFormed i) = true ∧ illFormed2.all (fun i => !wellFormed i) = true := by decide +kernel

/-- Words of reserved bits, unassigned operations and values no entry gives are refused by name (R190). -/
theorem test_decode_refuses :
    [(0x0000203060000003#64, DecErr.modv), (0x0020203060000004#64, .modv), (0x0180000000000000#64, .opcode), (0x0000203060100000#64, .reserved)].all
      (fun e => match decode e.1 with
        | .error r => r == e.2
        | .ok _ => false) = true := by decide +kernel
/-- Check 7 comes before check 8 (R182, R190, R248): FATOM .64 and CAS .32 of v255 are RESERVED, CAS .16 of v255 and FATOM .64 of v8 are MOD;
PACK to an integer type admits no rounding field (R232). -/
theorem test_check_order :
    [(0x430FF14FFA000000#64, DecErr.reserved), (0x4300814FFA000000#64, .modv), (0x41AFF14038000000#64, .reserved), (0x41AFF14034000000#64, .modv),
     ((encode (.pack plain 2 3 4 0 .i8 true .rz)).getD 0, .modv)].all
      (fun e => match decode e.1 with
        | .error r => r == e.2
        | .ok _ => false) = true := by decide +kernel
/-- Each family's words are what the encoder gives. -/
theorem test_encode_back :
    [words_int_vector, words_float_vector, words_lanes_and_streams, words_memory, words_sync, words_tiles, words_leases_and_engines, words_control, words_scalar, words_privileged].all (fun l => l.all fun e => encode e.2 == some e.1) = true := by decide +kernel
/-- Parcels of a dictionary code (R173, R184), and a 64-bit instruction's four. -/
theorem test_parcels :
    decodeParcels [0xFC05#16] = some (.dictionaryCode 15 5, 1) ∧
    decodeParcels [0x0720#16, 0x9080#16, 0x0030#16, 0x000C#16] = some (.shfldn plain 9 8 3 0 .g16 .clamp, 4) := by decide +kernel

/-! ## Single steps with the spec's results -/

def after (i : Instr) (s : State) : State :=
  match exec i s with
  | .next t => t
  | _ => s
/-- v1 to v3 hold x, y and z in every lane. -/
def sV (x y z : Lane) : State := withW sA fun w => { w with vregs := [(1, { lanes := lanesOf x }), (2, { lanes := lanesOf y }), (3, { lanes := lanesOf z })] }
def laneV (i : Instr) (s : State) : Lane × Flags := let t := after i s; (t.w.lane 9 5, t.w.fpstat)
def sS (x y : Word) : State := withW sA fun w => (w.wrS 2 x).wrS 3 y
def scal (i : Instr) (s : State) : Word := (after i s).w.rdS 9

/-- R195, in all four cases. -/
theorem test_divide :
    scal (.sdiv plain 9 2 3 false) (sS 7 0) = BitVec.allOnes 64 ∧ scal (.srem plain 9 2 3 true) (sS 7 0) = 7 ∧
    scal (.sdiv plain 9 2 3 false) (sS 0x8000000000000000 (BitVec.allOnes 64)) = 0x8000000000000000 ∧
    scal (.srem plain 9 2 3 false) (sS 0x8000000000000000 (BitVec.allOnes 64)) = 0 := by decide +kernel
/-- R220: saturation, and bits 31:5 of a shift amount. -/
theorem test_saturate :
    (laneV (.vadd plain 9 1 2 0 .sat) (sV 0x7FFFFFFF 1 0)).1 = 0x7FFFFFFF ∧ (laneV (.vadd plain 9 1 2 0 .wrap) (sV 0x7FFFFFFF 1 0)).1 = 0x80000000 ∧
    (laneV (.vabs plain 9 1 0 false) (sV 0x80000000 0 0)).1 = 0x80000000 ∧ (laneV (.vabs plain 9 1 0 true) (sV 0x80000000 0 0)).1 = 0x7FFFFFFF ∧
    (laneV (.vshl plain 9 1 2 0) (sV 1 33 0)).1 = 2 := by decide +kernel
/-- R109's table; bit 4 of FPSTAT is invalid (R78). -/
theorem test_ffma :
    laneV (.ffma plain 9 1 2 3 0 .rn) (sV 0 0x7F800000 0x7FC12345) = (0x7FC12345, 16) ∧
    laneV (.ffma plain 9 1 2 3 0 .rn) (sV 0xFF800000 0x80000000 0xFF812345) = (0xFFC12345, 16) ∧
    laneV (.ffma plain 9 1 2 3 0 .rn) (sV 0 0xFF800000 0x3F800000) = (0x7FC00000, 16) ∧
    laneV (.ffma plain 9 1 2 3 0 .rn) (sV 0x7F812345 0 0x7FC00001) = (0x7FC12345, 16) ∧
    laneV (.ffma plain 9 1 2 3 0 .rn) (sV 0x7F800000 0x40000000 0xFF800000) = (0x7FC00000, 16) := by decide +kernel
/-- R231's table: 300.0, 460.0, 470.0, −500.0 and +∞ to e4m3; overflow is bit 2, inexact bit 0. -/
def toE4 (x : Lane) (r : Rnd) : Lane × Flags := laneV (.cvt plain 9 1 0 .e4m3 .f32 r) (sV x 0 0)
theorem test_cvt_e4m3 :
    toE4 0x43960000 .rn = (0x79, 1) ∧ toE4 0x43960000 .ru = (0x7A, 1) ∧ toE4 0x43E60000 .rn = (0x7E, 1) ∧ toE4 0x43E60000 .ru = (0x7E, 5) ∧
    toE4 0x43EB0000 .rn = (0x7E, 5) ∧ toE4 0x43EB0000 .rz = (0x7E, 1) ∧ toE4 0xC3FA0000 .rz = (0xFE, 5) ∧ toE4 0x7F800000 .rn = (0x7F, 16) := by decide +kernel
/-- R112: −5 to n32 and 0x80000000 from n32 to i32. -/
theorem test_cvt_int :
    laneV (.cvt plain 9 1 0 .n32 .i32 .rn) (sV 0xFFFFFFFB 0 0) = (0, 0) ∧ laneV (.cvt plain 9 1 0 .i32 .n32 .rn) (sV 0x80000000 0 0) = (0x7FFFFFFF, 0) := by decide +kernel
/-- R229's example: +0, 2^30, 2^100 and 2^−100 give 2^30. -/
theorem test_scacc : (let t := after (.scacc plain 4 (.v 1) (.v 2) (.v 3) 0) (sV 0x40000000 0x71800000 0x0D800000)
    (t.w.lane 4 5, t.w.fpstat)) = (0x4E800000, 0) := by decide +kernel
/-- R120: +∞ times zero with D a NaN gives the default NaN and invalid. -/
theorem test_scacc_nan :
    (fun t : State => (t.w.lane 4 5, t.w.fpstat)) (after (.scacc plain 4 (.v 1) (.v 2) (.v 3) 0)
      (withW (sV 1 0x7F800000 0) fun w => { w with vregs := w.vregs ++ [(4, { lanes := lanesOf 0x7FC12345 })] })) =
      (0x7FC00000, 16) := by decide +kernel
/-- R107, R122: 2^-200 is tiny: underflow and inexact (bits 1 and 0). -/
theorem test_fexp2_tiny : (laneV (.fexp2 plain 9 1 0) (sV 0xC3480000 0 0)).2 &&& 3 = 3 := by decide +kernel
/-- R235's table, lanes 5, 14 and 15: v8 holds 100 + L. -/
def sLanes : State := withW sA fun w => { w with vregs := [(8, { lanes := (List.range 16).map fun L => BitVec.ofNat 32 (100 + L) })] }
theorem test_shfldn :
    (let f := fun m L => (after (.shfldn plain 9 8 3 0 .g16 m) sLanes).w.lane 9 L
     [f .wrap 5, f .clamp 5, f .own 5, f .wrap 14, f .clamp 14, f .own 14, f .wrap 15, f .clamp 15, f .own 15]) =
      [108, 108, 108, 101, 115, 114, 102, 115, 115] := by decide +kernel
/-- R104's table: a view of a stored PI8 value by fewer planes is an arithmetic shift right. -/
theorem test_pi_views : [(77, 4), (-77, -5), (-1, -1), (15, 0)].all (fun e => (e.1 : Int) / 16 == e.2) = true := by decide
/-- R199, R206: SETFS stores its source modulo NWARPS. -/
theorem test_setfs : (after (.setfs plain 2) sA).w.fsucc = 3 := by decide +kernel
/-- R320, R321: TRAP 7 enters the handler; the frame holds CAUSE 0x0E and, at 48, TRAPARG. -/
theorem test_trap_user :
    (let t := after (.trap plain 7) sTrapU
     (t.w.p.pc, t.w.p.atHdr, t.mem.readN (userFrameAddr sTrapU.w) 8, t.mem.readN (userFrameAddr sTrapU.w + 48) 8, t.w.p.inH)) =
      (0x200400, true, 0x0E, 7, true) := by decide +kernel
/-- R213: CALL leaves the address after its body in s126 and moves to the header. -/
theorem test_call : (let t := after (.call plain 0x200) sA; (t.w.p.pc, t.w.rdS 126, t.w.p.atHdr)) = (0x200400, 0x200018, true) := by decide +kernel
/-- A word reaches the machine as the first instruction of a block: SMOVI of 0x80000000 is sign-extended (R197). -/
theorem test_first_step :
    (match step (State.reset.withFetchWord 64 0x0000000090088470) with
     | .next t => t.w.rdS 9
     | _ => 0) = 0xFFFFFFFF80000000 := by decide +kernel

end Sys2Proof.Tests
end

section
/-! SUPPORT. Dictionary codes (spec/08 R184, R185, R190): what a code's expansion can be, that an expansion acts as the instruction itself,
and what a scalar instruction of any length leaves. -/
namespace Sys2Proof.Machine

/-! ## What a code expands to -/

@[simp] theorem expand_ilen (s : State) (k : BitVec 4) (n : BitVec 10) (l : Nat) : expand { s with ilen := l } k n = expand s k n := rfl

/-- R185: an index at or beyond the count of the launch or the entries of the core, or a header without DICT: subcode DICT. -/
theorem expand_eq_error_dict (s : State) (k : BitVec 4) (n : BitVec 10)
    (h : n.toNat ≥ s.w.id.dictcount ∨ Hdr.dict s.w.p.hdr.word = false ∨ (s.core s.w.core).dict.length ≤ n.toNat) :
    expand s k n = .error 7 := by
  unfold expand
  dsimp only
  split
  · rfl
  · rename_i hentry
    have hlen : ¬ (s.core s.w.core).dict.length ≤ n.toNat := fun hle => by
      rw [List.getElem?_eq_none hle] at hentry
      cases hentry
    have hchecks : (decide (s.w.id.dictcount ≤ n.toNat) || !Hdr.dict s.w.p.hdr.word) = true := by
      rcases h with hcount | hflag | hle
      · simp [hcount]
      · simp [hflag]
      · exact absurd hle hlen
    rw [if_pos hchecks]

/-- R184: rebasing answers only instructions that have an encoding. -/
theorem rebased_encodes {k : BitVec 4} {w : Word} {i : Instr} (h : rebased k w = some i) : ∃ x, encode i = some x := by
  unfold rebased at h
  split at h
  · cases h
  · dsimp only at h
    split at h
    · cases h
    · rename_i x hx
      split at h
      · split at h
        · cases h
          exact ⟨x, hx⟩
        · cases h
      · cases h

/-- R184, R190: a code that expands names an entry of the core's dictionary, which rebases to the expansion. -/
theorem expand_eq_ok {s : State} {k : BitVec 4} {n : BitVec 10} {i : Instr} (h : expand s k n = .ok i) :
    ∃ e, (s.core s.w.core).dict[n.toNat]? = some e ∧ rebased k e = some i := by
  unfold expand at h
  dsimp only at h
  split at h
  · cases h
  · rename_i e hentry
    split at h
    · cases h
    · split at h
      · cases h
      · split at h
        · cases h
        · split at h
          · cases h
          · rename_i hrebased
            cases h
            exact ⟨e, hentry, hrebased⟩

/-! ## What a code does -/

theorem exec_dictionaryCode_of_error {s : State} {k : BitVec 4} {n : BitVec 10} {e : Nat} (h : expand s k n = .error e) :
    exec (.dictionaryCode k n) s = .next (takeTrap { s with ilen := 2 } { code := 1, sub := e }) := by
  rw [exec_dictionaryCode, execDictionaryCode]
  simp only [expand_ilen, h, illegal, trap]

/-- R184: an instruction that has an encoding means in a dictionary what it means in a body. A code and the happenings have none. -/
theorem execEntry_eq_exec {i : Instr} {x : Word} (s : State) (h : encode i = some x) : execEntry i s = exec i s := by
  cases i
  case dictionaryCode | reservationGrant | spill | slip | tenureTransfer | starvationRescue | pathSwitchStall | pathAgeingSwitch |
      engineSramError | loadComplete | writeApply | writeComplete | streamElementsArrive | tileWriteAccept | tileReadComplete |
      tileDrainComplete | definerVoid | tileWaitWatchdog | blockStart | blockRetire | syncReleaseWave | leaseGrant | leaseWake |
      leaseEviction | engineStop | vacateComplete | retentionExpiry | engineCommandComplete | collectiveAbort | publishVersionWritten |
      chainTimeTick | preemptStop | hostWindowRead | hostWindowWrite | publicationDescriptorWrite | qtailDoorbell | qctlHaltedClear |
      registerWrite | launchRecordRead | waitaddrPoll | gangPlacement | launchEnd | launchDoneCount | sliceEnd | preemptHandlerEntry |
      forcedSave | sliceStart | railStep | railHoldEnd | clockSwitch | quotaExhausted | furlongWindow | furlongPortDown | flitRetry |
      attest | readout | frameset | quotaset | perchbind | perchunbind | checkpoint | checkpointEnd | ckstatus | restore | restoreEnd |
      warmreset | powerOnReset | perchWarpStop | perchPathHold | perchReleaseWarp | perchReleasePath | perchReleaseAll | breakpointHit |
      mdataRead | mdataWrite | sampleArm | traceArm | stallSample | furlongPortUp | furlongPortDegraded | keyDomainRekey |
      partitionReconfigure | replayCapture | replay => cases h
  all_goals rfl

theorem exec_dictionaryCode_of_ok {s : State} {k : BitVec 4} {n : BitVec 10} {i : Instr} (h : expand s k n = .ok i) :
    exec (.dictionaryCode k n) s = exec i { s with ilen := 2 } := by
  obtain ⟨e, -, hrebased⟩ := expand_eq_ok h
  obtain ⟨x, hx⟩ := rebased_encodes hrebased
  rw [exec_dictionaryCode, execDictionaryCode]
  simp only [expand_ilen, h]
  exact execEntry_eq_exec _ hx

/-! ## Scalar instructions of any length -/

@[simp] theorem freeUse_pc (w : Warp) (u : Use) : (freeUse w u).p.pc = w.p.pc := by
  rw [(freeUse_same w u).eq]

@[simp] theorem Warp.wrS_pc (w : Warp) (d : SIdx) (v : Word) : (w.wrS d v).p.pc = w.p.pc := by
  rw [Warp.wrS_frame]

/-- A scalar instruction that is ready goes on behind itself, by its own length, with its result in its destination. -/
theorem sop_ready_result (ss : List (SIdx × Bool)) (d : SIdx) (f : Warp → Word) (s : State) (h : Ready { ssrc := ss, sdst := [d] } s) :
    ∃ t, sop ss d f s = .next t ∧ t.w.p.pc = s.w.p.pc + s.ilen ∧ t.w.rdS d = (if d = 0 then 0 else f s.w) ∧ t.mem = s.mem := by
  obtain ⟨vd, hs⟩ := sop_ready ss d f s h
  refine ⟨_, hs, ?_, ?_, rfl⟩
  · show ((freeUse s.w _).wrS d _).p.pc + s.ilen = _
    rw [Warp.wrS_pc, freeUse_pc]
  · show ((freeUse s.w _).wrS d _).rdS d = _
    rw [Warp.rdS_wrS, if_pos rfl]

/-- R194: SADD is the scalar instruction that adds. -/
theorem exec_sadd_eq_sop (c : Ctl) (d a b : SIdx) (s : State) :
    exec (.sadd c d a b) s = sop [(a, luA c), (b, luB c)] d (fun w => w.rdS a + w.rdS b) s := rfl

end Sys2Proof.Machine
end

section
open Sys2Proof Sys2Proof.Machine

/-- Settles O34: a code without an expansion is the illegal-instruction fault of its subcode, and R185's cases give DICT; an expansion has
an encoding, and whatever has one acts in a dictionary as `exec` says; SADD is then any scalar instruction, two bytes long. -/
theorem dictionaryCodes : Obligations.DictionaryCodes := by
  refine ⟨?_, ?_, ?_, ?_⟩
  · intro k n s e h
    exact exec_dictionaryCode_of_error h
  · intro k n s h
    exact expand_eq_error_dict s k n h
  · intro k n s i h
    exact exec_dictionaryCode_of_ok h
  · intro k n s c d a b h hready
    rw [exec_dictionaryCode_of_ok h, exec_sadd_eq_sop]
    exact sop_ready_result _ d _ { s with ilen := 2 } hready
end

section
/-! SUPPORT. Scalar registers through an issue (spec/03 R54 to R63): what is freed, what is kept, and the effect that every instruction with
one scalar result has (R192, R194). -/
namespace Sys2Proof.Machine
open Sys2Proof.Stmt

/-! ## Warps that differ in their scalars alone -/

/-- The warp without its scalar registers and their reservation. -/
def Warp.sansScalars (w : Warp) : Warp := { w with sregs := [], resS := 0 }

theorem Warp.eq_of_sansScalars {w w' : Warp} (h : w'.sansScalars = w.sansScalars) :
    w' = { w with sregs := w'.sregs, resS := w'.resS } :=
  calc w' = { w'.sansScalars with sregs := w'.sregs, resS := w'.resS } := rfl
    _ = { w.sansScalars with sregs := w'.sregs, resS := w'.resS } := by rw [h]

theorem Warp.sansScalars_freeS (w : Warp) (r : SIdx) : (w.freeS r).sansScalars = w.sansScalars := by
  rw [Warp.freeS_frame]; rfl

theorem Warp.sansScalars_wrS (w : Warp) (d : SIdx) (v : Word) (h : w.pendingS d = false) : (w.wrS d v).sansScalars = w.sansScalars := by
  rw [Warp.wrS_frame, Warp.wrS_ops w d v h]; rfl

theorem Warp.sansScalars_refillSs (w : Warp) (l : List (SIdx × Bool)) : (w.refillSs l).sansScalars = w.sansScalars := by
  unfold Warp.refillSs
  split
  · exact Warp.foldl_keep Warp.sansScalars (fun w (x : SIdx × Bool) => w.refillS x.1) (fun _ _ => rfl) l w
  · rfl

theorem Warp.sansScalars_freeSs (w : Warp) (l : List (SIdx × Bool)) : (w.freeSs l).sansScalars = w.sansScalars :=
  Warp.foldl_keep Warp.sansScalars (fun w (x : SIdx × Bool) => if x.2 then w.freeS x.1 else w)
    (fun w x => by
      split
      · exact Warp.sansScalars_freeS w x.1
      · rfl) l w

/-- Without vector sources there is nothing to refill, to free or to consume but scalars. -/
theorem freeUse_scalars (w : Warp) (ss : List (SIdx × Bool)) (ds : List SIdx) :
    freeUse w { ssrc := ss, sdst := ds } = (w.refillSs ss).freeSs ss := by
  simp [freeUse, readPorts, Warp.refillVs, Warp.freeVs]

theorem sansScalars_freeUse (w : Warp) (ss : List (SIdx × Bool)) (ds : List SIdx) :
    (freeUse w { ssrc := ss, sdst := ds }).sansScalars = w.sansScalars := by
  rw [freeUse_scalars, Warp.sansScalars_freeSs, Warp.sansScalars_refillSs]

/-! ## Frees and pending writes -/

theorem Warp.sreg_freeS_same (w : Warp) (r : SIdx) (h0 : r ≠ 0) (hi : inboxS r.toNat = false) : (w.freeS r).sregs.get? r.toNat = none := by
  unfold Warp.freeS
  rw [if_neg (by simpa [hi] using h0)]
  split
  · assumption
  · exact SMap.get?_del_same _ _

/-- A free unmaps a register or leaves it as it is. -/
theorem Warp.sreg_freeS (w : Warp) (r : SIdx) (k : Nat) :
    (w.freeS r).sregs.get? k = none ∨ (w.freeS r).sregs.get? k = w.sregs.get? k := by
  unfold Warp.freeS
  split
  · exact .inr rfl
  · split
    · exact .inr rfl
    · by_cases hk : k = r.toNat
      · exact .inl (hk ▸ SMap.get?_del_same _ _)
      · exact .inr (SMap.get?_del_other _ hk)

theorem Warp.sreg_freeSs (l : List (SIdx × Bool)) (w : Warp) (k : Nat) :
    (w.freeSs l).sregs.get? k = none ∨ (w.freeSs l).sregs.get? k = w.sregs.get? k := by
  induction l generalizing w with
  | nil => exact .inr rfl
  | cons x l ih =>
    rcases ih (if x.2 then w.freeS x.1 else w) with h | h
    · exact .inl h
    · rw [show w.freeSs (x :: l) = (if x.2 then w.freeS x.1 else w).freeSs l from rfl, h]
      split
      · exact Warp.sreg_freeS w x.1 k
      · exact .inr rfl

/-- R57: a last-use source is unmapped; s0 and the inbox registers never are. -/
theorem Warp.sreg_freeSs_lastUse (l : List (SIdx × Bool)) (w : Warp) {x : SIdx × Bool} (hx : x ∈ l) (hlu : x.2 = true) (h0 : x.1 ≠ 0)
    (hi : inboxS x.1.toNat = false) : (w.freeSs l).sregs.get? x.1.toNat = none := by
  induction l generalizing w with
  | nil => exact absurd hx List.not_mem_nil
  | cons y l ih =>
    rcases List.mem_cons.mp hx with rfl | hl
    · rw [show w.freeSs (x :: l) = (w.freeS x.1).freeSs l by simp [Warp.freeSs, hlu]]
      rcases Warp.sreg_freeSs l (w.freeS x.1) x.1.toNat with h | h
      · exact h
      · exact h.trans (Warp.sreg_freeS_same w x.1 h0 hi)
    · exact ih (if y.2 then w.freeS y.1 else w) hl

theorem Warp.pendingS_refillS (w : Warp) (r d : SIdx) : (w.refillS r).pendingS d = w.pendingS d := by
  unfold Warp.pendingS Warp.refillS
  by_cases h : d.toNat = r.toNat
  · rw [h, SMap.get?_modify_same]
    cases w.sregs.get? r.toNat <;> rfl
  · rw [SMap.get?_modify_other _ _ h]

theorem Warp.pendingS_refillSs (w : Warp) (l : List (SIdx × Bool)) (d : SIdx) : (w.refillSs l).pendingS d = w.pendingS d := by
  unfold Warp.refillSs
  split
  · exact Warp.foldl_keep (fun w => w.pendingS d) (fun w (x : SIdx × Bool) => w.refillS x.1) (fun w x => Warp.pendingS_refillS w x.1 d) l w
  · rfl

/-- A destination that no operation is still to write is none after the sources' frees either (log 7). -/
theorem pendingS_freeUse {w : Warp} {d : SIdx} (h : w.pendingS d = false) (ss : List (SIdx × Bool)) (ds : List SIdx) :
    (freeUse w { ssrc := ss, sdst := ds }).pendingS d = false := by
  rw [freeUse_scalars]
  rcases Warp.sreg_freeSs ss (w.refillSs ss) d.toNat with hn | he
  · rw [Warp.pendingS, hn]; rfl
  · rw [Warp.pendingS, he]
    exact (Warp.pendingS_refillSs w ss d).trans h

/-! ## Instructions with one scalar result -/

/-- R55, R57: the scalar that is written is the only one a write maps. -/
theorem Warp.sreg_wrS_other (w : Warp) (d r : SIdx) (v : Word) (h : r ≠ d) : (w.wrS d v).sregs.get? r.toNat = w.sregs.get? r.toNat := by
  unfold Warp.wrS
  split
  · rfl
  · exact SMap.get?_put_other _ _ fun e => h (BitVec.eq_of_toNat_eq e)

theorem Ready.pendingS_eq_false {ss : List (SIdx × Bool)} {d : SIdx} {s : State} (h : Ready { ssrc := ss, sdst := [d] } s) :
    s.w.pendingS d = false := by
  simpa [writesPending] using h.2

/-- R192, R194: an instruction that is one scalar result has the effect of a scalar instruction. -/
theorem scalarEffect_of_sop {i : Instr} {ss : List (SIdx × Bool)} {d : SIdx} {f : Warp → Word} {s : State} (hexec : exec i s = sop ss d f s)
    (h : Ready { ssrc := ss, sdst := [d] } s) : ScalarEffect ⟨ss, d, f s.w⟩ i s := by
  obtain ⟨vd, hs⟩ := sop_ready ss d f s h
  refine ⟨_, hexec.trans hs, ⟨rfl, ?_⟩, ?_, ?_, ?_⟩
  · have hw : ((freeUse s.w { ssrc := ss, sdst := [d] }).wrS d (f s.w)).sansScalars = s.w.sansScalars := by
      rw [Warp.sansScalars_wrS _ _ _ (pendingS_freeUse h.pendingS_eq_false ss [d]), sansScalars_freeUse]
    exact congrArg (fun w => w.advance s.ilen) (Warp.eq_of_sansScalars hw)
  · show ((freeUse s.w _).wrS d _).rdS d = _
    rw [Warp.rdS_wrS, if_pos rfl]
  · intro r hr hkept
    show ((freeUse s.w _).wrS d _).rdS r = _
    rw [Warp.rdS_wrS_other _ _ _ _ hr, rdS_freeUse s.w { ssrc := ss, sdst := [d] } r hkept]
  · intro x hx hlu hd h0 hi
    show (((freeUse s.w _).wrS d _).sregs.get? x.1.toNat).isSome = false
    rw [Warp.sreg_wrS_other _ _ _ _ (by simpa using hd), freeUse_scalars, Warp.sreg_freeSs_lastUse ss _ hx hlu h0 hi]
    rfl

theorem scalarRule_of_sop {i : Instr} {ss : List (SIdx × Bool)} {d : SIdx} {f : Warp → Word} (hexec : ∀ s, exec i s = sop ss d f s) :
    ScalarRule ss d i f := fun s h => scalarEffect_of_sop (hexec s) h

theorem scalar2_of_sop2 {k : Ctl → SIdx → SIdx → SIdx → Instr} {f : Word → Word → Word}
    (hexec : ∀ c d a b s, exec (k c d a b) s = sop2 c d a b f s) : Scalar2 k f :=
  fun c d a b => scalarRule_of_sop (hexec c d a b)

theorem scalar1_of_sop1 {α : Type} {k : Ctl → SIdx → SIdx → α → Instr} {f : α → Word → Word}
    (hexec : ∀ c d a n s, exec (k c d a n) s = sop1 c d a (f n) s) : Scalar1 k f :=
  fun c d a n => scalarRule_of_sop (hexec c d a n)

end Sys2Proof.Machine
end

section
/-! SUPPORT. The values of the scalar instructions (spec/09 R194 to R198): the model's operations against the integers and the bits that the
rules speak of. -/
namespace Sys2Proof.Machine
open Sys2Proof.Stmt

/-! ## Quotients, minima, predicates (R194, R195) -/

theorem sdiv_eq_ofInt_tdiv (x y : Word) : x.sdiv y = BitVec.ofInt 64 (x.toInt.tdiv y.toInt) := by
  apply BitVec.eq_of_toInt_eq
  rw [BitVec.toInt_sdiv, BitVec.toInt_ofInt]

theorem srem_eq_ofInt_tmod (x y : Word) : x.srem y = BitVec.ofInt 64 (x.toInt.tmod y.toInt) := by
  rw [← BitVec.toInt_srem, BitVec.ofInt_toInt]

theorem divS_eq_quotS (u : Bool) : divS u = quotS u := by
  funext x y
  unfold divS quotS
  rw [sdiv_eq_ofInt_tdiv, show x.udiv y = BitVec.ofNat 64 (x.toNat / y.toNat) from BitVec.udiv_def]

theorem remS_eq_remdS (u : Bool) : remS u = remdS u := by
  funext x y
  unfold remS remdS
  rw [srem_eq_ofInt_tmod, show x.umod y = BitVec.ofNat 64 (x.toNat % y.toNat) from BitVec.umod_def]

theorem minS_eq_ofInt_min (x y : Word) : minS x y = BitVec.ofInt 64 (min x.toInt y.toInt) := by
  unfold minS
  split
  · rename_i h
    rw [Int.min_eq_right (Int.le_of_lt (BitVec.slt_iff_toInt_lt.mp h)), BitVec.ofInt_toInt]
  · rename_i h
    rw [Int.min_eq_left (Int.not_lt.mp fun hlt => h (BitVec.slt_iff_toInt_lt.mpr hlt)), BitVec.ofInt_toInt]

theorem maxS_eq_ofInt_max (x y : Word) : maxS x y = BitVec.ofInt 64 (max x.toInt y.toInt) := by
  unfold maxS
  split
  · rename_i h
    rw [Int.max_eq_right (Int.le_of_lt (BitVec.slt_iff_toInt_lt.mp h)), BitVec.ofInt_toInt]
  · rename_i h
    rw [Int.max_eq_left (Int.not_lt.mp fun hlt => h (BitVec.slt_iff_toInt_lt.mpr hlt)), BitVec.ofInt_toInt]

theorem minU_eq_ofNat_min (x y : Word) : minU x y = BitVec.ofNat 64 (min x.toNat y.toNat) := by
  unfold minU
  split
  · rename_i h
    rw [Nat.min_eq_right (Nat.le_of_lt (BitVec.ult_iff_toNat_lt.mp h)), BitVec.ofNat_toNat, BitVec.setWidth_eq]
  · rename_i h
    rw [Nat.min_eq_left (Nat.not_lt.mp fun hlt => h (BitVec.ult_iff_toNat_lt.mpr hlt)), BitVec.ofNat_toNat, BitVec.setWidth_eq]

theorem maxU_eq_ofNat_max (x y : Word) : maxU x y = BitVec.ofNat 64 (max x.toNat y.toNat) := by
  unfold maxU
  split
  · rename_i h
    rw [Nat.max_eq_right (Nat.le_of_lt (BitVec.ult_iff_toNat_lt.mp h)), BitVec.ofNat_toNat, BitVec.setWidth_eq]
  · rename_i h
    rw [Nat.max_eq_left (Nat.not_lt.mp fun hlt => h (BitVec.ult_iff_toNat_lt.mpr hlt)), BitVec.ofNat_toNat, BitVec.setWidth_eq]

/-- The model's predicates are the relations between integers. -/
theorem predHolds_iff_holds (p : Pred) {n : Nat} (x y : BitVec n) : predHolds p x y = true ↔ holds p x y := by
  cases p <;>
    simp [predHolds, holds, BitVec.slt_iff_toInt_lt, BitVec.sle_iff_toInt_le, BitVec.ult_iff_toNat_lt, BitVec.ule_iff_toNat_le]

/-- R194: what a comparison writes. -/
theorem predHolds_ite (p : Pred) {n : Nat} (x y : BitVec n) :
    ((if predHolds p x y then 1 else 0 : Word) = 1 ∧ holds p x y) ∨ ((if predHolds p x y then 1 else 0 : Word) = 0 ∧ ¬ holds p x y) := by
  rw [← predHolds_iff_holds]
  cases predHolds p x y
  · exact .inr ⟨rfl, Bool.false_ne_true⟩
  · exact .inl ⟨rfl, rfl⟩

/-! ## Counts (R194, R198) -/

theorem leadZeros_le {n : Nat} (a : BitVec n) : leadZeros a ≤ n := by
  unfold leadZeros
  split <;> omega

/-- The bits above the highest one are zeros. -/
theorem getLsbD_above_leadZeros (a : Word) {k : Nat} (hk : k < leadZeros a) : a.getLsbD (63 - k) = false := by
  by_cases h0 : a = 0
  · rw [h0]; exact BitVec.getLsbD_zero
  · rw [leadZeros, if_neg h0] at hk
    exact Nat.testBit_lt_two_pow (Nat.lt_of_lt_of_le Nat.lt_log2_self (Nat.pow_le_pow_right (by omega) (by omega)))

/-- And under them stands a one. -/
theorem getLsbD_leadZeros (a : Word) (h : leadZeros a < 64) : a.getLsbD (63 - leadZeros a) = true := by
  have h0 : a ≠ 0 := fun e => by simp [leadZeros, e] at h
  have hn : a.toNat ≠ 0 := fun e => h0 (BitVec.eq_of_toNat_eq e)
  have hlog : a.toNat.log2 < 64 := (Nat.log2_lt hn).mpr a.isLt
  rw [leadZeros, if_neg h0, show 63 - (64 - 1 - a.toNat.log2) = a.toNat.log2 by omega]
  exact Nat.testBit_log2 hn

theorem getLsbD_allLanes (W k : Nat) (hk : k < 64) : (allLanes W).getLsbD k = decide (k < W) := by
  rw [allLanes, BitVec.getLsbD_ofNat, Nat.testBit_two_pow_sub_one, decide_eq_true hk, Bool.true_and]

theorem getLsbD_and_allLanes (m : Word) (W : Nat) {k : Nat} (hk : k < 64) :
    (m &&& allLanes W).getLsbD k = (m.getLsbD k && decide (k < W)) := by
  rw [BitVec.getLsbD_and, getLsbD_allLanes W k hk]

theorem ones_eq_countP {n : Nat} (a : BitVec n) : ones a = (List.range n).countP fun k => a.getLsbD k :=
  List.countP_eq_length_filter.symm

/-- The ones of a mask taken over bits W−1:0. -/
theorem ones_and_allLanes (m : Word) {W : Nat} (hW : W ≤ 64) :
    ones (m &&& allLanes W) = (List.range W).countP fun k => m.getLsbD k := by
  have hsplit : List.range 64 = List.range W ++ (List.range (64 - W)).map (W + ·) := by
    rw [← List.range_add, Nat.add_sub_cancel' hW]
  rw [ones_eq_countP, hsplit, List.countP_append, List.countP_map]
  have hlow : ((List.range W).countP fun k => (m &&& allLanes W).getLsbD k) = (List.range W).countP fun k => m.getLsbD k :=
    List.countP_congr fun k hk => by
      have hkW := List.mem_range.mp hk
      rw [getLsbD_and_allLanes m W (by omega)]
      simp [hkW]
  have hhigh : (List.range (64 - W)).countP ((fun k => (m &&& allLanes W).getLsbD k) ∘ (W + ·)) = 0 :=
    List.countP_eq_zero.mpr fun k hk => by
      have hkW := List.mem_range.mp hk
      simp [getLsbD_allLanes W (W + k) (by omega)]
  rw [hlow, hhigh, Nat.add_zero]

/-- The lowest one of a mask taken over bits W−1:0, or 64. -/
theorem lowest_and_allLanes (m : Word) {W : Nat} (hW : W ≤ 64) :
    let n := lowest (m &&& allLanes W)
    (n < W ∧ m.getLsbD n = true ∧ ∀ k, k < n → m.getLsbD k = false) ∨ (n = 64 ∧ ∀ k, k < W → m.getLsbD k = false) := by
  intro n
  have hn : n = ((List.range 64).find? fun i => (m &&& allLanes W).getLsbD i).getD 64 := rfl
  cases hfind : (List.range 64).find? fun i => (m &&& allLanes W).getLsbD i with
  | none =>
    rw [hfind] at hn
    refine .inr ⟨hn, fun k hk => ?_⟩
    have hk64 : k < 64 := by omega
    have hbit := List.find?_eq_none.mp hfind k (List.mem_range.mpr hk64)
    rw [getLsbD_and_allLanes m W hk64] at hbit
    simpa [hk] using hbit
  | some j =>
    rw [hfind] at hn
    obtain rfl : n = j := hn
    obtain ⟨hone, hmem, hbelow⟩ := List.find?_range_eq_some.mp hfind
    have hn64 := List.mem_range.mp hmem
    rw [getLsbD_and_allLanes m W hn64] at hone
    obtain ⟨hbit, hnW⟩ : m.getLsbD n = true ∧ n < W := by simpa using hone
    refine .inl ⟨hnW, hbit, fun k hk => ?_⟩
    have hzero := hbelow k hk
    rw [getLsbD_and_allLanes m W (by omega)] at hzero
    have hkW : k < W := by omega
    simpa [hkW] using hzero

/-! ## Bit fields (R196) -/

/-- R196: the field as a bit vector of its own, extended by its top bit or by zeros. -/
theorem bfx_eq_extend (a : Word) (pos len : Nat) (sgn : Bool) :
    bfx a pos len sgn = if sgn then (a.extractLsb' pos len).signExtend 64 else (a.extractLsb' pos len).setWidth 64 := by
  have hfield : (a.extractLsb' pos len).toNat = a.toNat / 2 ^ pos % 2 ^ len := by
    rw [BitVec.extractLsb'_toNat, Nat.shiftRight_eq_div_pow]
  have hwidth : (a.extractLsb' pos len).setWidth 64 = BitVec.ofNat 64 (a.toNat / 2 ^ pos % 2 ^ len) := by
    rw [← hfield]; exact (BitVec.ofNat_toNat 64 _).symm
  have hmsb : (a.extractLsb' pos len).msb = (a.toNat / 2 ^ pos % 2 ^ len).testBit (len - 1) := by
    rw [BitVec.msb_eq_getLsbD_last, BitVec.getLsbD, hfield]
  unfold bfx
  cases sgn with
  | false => simp [hwidth]
  | true =>
    cases htop : (a.toNat / 2 ^ pos % 2 ^ len).testBit (len - 1) with
    | false =>
      rw [htop] at hmsb
      simp [htop, BitVec.signExtend_eq_setWidth_of_msb_false hmsb, hwidth]
    | true =>
      rw [htop] at hmsb
      simp [htop, BitVec.signExtend, BitVec.toInt_eq_msb_cond, hmsb, hfield]

/-- R196: bits beyond 63 enter as zeros. -/
theorem getLsbD_bfx (a : Word) (pos len1 : Nat) (sgn : Bool) {k : Nat} (hk : k < 64) :
    (bfx a pos (len1 + 1) sgn).getLsbD k = if k ≤ len1 then a.getLsbD (pos + k) else (sgn && a.getLsbD (pos + len1)) := by
  have hmsb : (a.extractLsb' pos (len1 + 1)).msb = a.getLsbD (pos + len1) := by
    rw [BitVec.msb_eq_getLsbD_last, BitVec.getLsbD_extractLsb']
    simp
  rw [bfx_eq_extend]
  cases sgn with
  | false =>
    rw [if_neg Bool.false_ne_true, BitVec.getLsbD_setWidth, BitVec.getLsbD_extractLsb', decide_eq_true hk, Bool.true_and]
    by_cases hin : k ≤ len1
    · rw [if_pos hin, decide_eq_true (Nat.lt_succ_of_le hin), Bool.true_and]
    · rw [if_neg hin, decide_eq_false (by omega), Bool.false_and, Bool.false_and]
  | true =>
    rw [if_pos rfl, BitVec.getLsbD_signExtend, decide_eq_true hk, Bool.true_and, hmsb]
    by_cases hin : k ≤ len1
    · rw [if_pos hin, if_pos (Nat.lt_succ_of_le hin), BitVec.getLsbD_extractLsb', decide_eq_true (Nat.lt_succ_of_le hin), Bool.true_and]
    · rw [if_neg hin, if_neg (by omega), Bool.true_and]

/-- R196: the field of the destination is replaced, its other bits stay; bits beyond 63 are dropped. -/
theorem getLsbD_bfi (d a : Word) (pos len1 : Nat) {k : Nat} (hk : k < 64) :
    (bfi d a pos (len1 + 1)).getLsbD k = if pos ≤ k ∧ k ≤ pos + len1 then a.getLsbD (k - pos) else d.getLsbD k := by
  have hm : (BitVec.ofNat 64 ((2 ^ (len1 + 1) - 1) * 2 ^ pos)).getLsbD k = decide (pos ≤ k ∧ k ≤ pos + len1) := by
    rw [BitVec.getLsbD_ofNat, Nat.testBit_mul_two_pow, Nat.testBit_two_pow_sub_one, decide_eq_true hk, Bool.true_and, ← Bool.decide_and]
    exact decide_eq_decide.mpr (by omega)
  simp only [bfi, BitVec.getLsbD_or, BitVec.getLsbD_and, BitVec.getLsbD_not, BitVec.getLsbD_shiftLeft, hm]
  split
  · rename_i h
    simp [h, hk, Nat.not_lt.mpr h.1]
  · rename_i h
    simp [h, hk]

end Sys2Proof.Machine
end

section
/-! SUPPORT. The parts of O1 (spec/09 R194 to R198), each from the effect of an instruction with one scalar result and from its value. -/
namespace Sys2Proof.Machine
open Sys2Proof.Stmt

theorem scalarTwoSources : ScalarTwoSources := by
  refine ⟨scalar2_of_sop2 exec_sadd, scalar2_of_sop2 exec_ssub, scalar2_of_sop2 exec_smul, ?smulh, ?sdiv, ?srem, scalar2_of_sop2 exec_sand,
    scalar2_of_sop2 exec_sor, scalar2_of_sop2 exec_sxor, scalar2_of_sop2 exec_sshl, scalar2_of_sop2 exec_sshr, scalar2_of_sop2 exec_ssra,
    ?smin, ?smax, ?sminn, ?smaxn, ?ssel⟩
  case smulh => exact fun u => scalar2_of_sop2 fun c d a b => exec_smulh c d a b u
  case sdiv =>
    intro u
    rw [← divS_eq_quotS]
    exact scalar2_of_sop2 fun c d a b => exec_sdiv c d a b u
  case srem =>
    intro u
    rw [← remS_eq_remdS]
    exact scalar2_of_sop2 fun c d a b => exec_srem c d a b u
  case smin =>
    simp only [← minS_eq_ofInt_min]
    exact scalar2_of_sop2 exec_smin
  case smax =>
    simp only [← maxS_eq_ofInt_max]
    exact scalar2_of_sop2 exec_smax
  case sminn =>
    simp only [← minU_eq_ofNat_min]
    exact scalar2_of_sop2 exec_sminn
  case smaxn =>
    simp only [← maxU_eq_ofNat_max]
    exact scalar2_of_sop2 exec_smaxn
  case ssel => exact fun c d a b cc => scalarRule_of_sop (exec_ssel c d a b cc)

theorem scalarImmediates : ScalarImmediates := by
  refine ⟨?smov, scalar1_of_sop1 exec_saddi, scalar1_of_sop1 exec_sandi, scalar1_of_sop1 exec_sori, scalar1_of_sop1 exec_sxori,
    scalar1_of_sop1 exec_sshli, scalar1_of_sop1 exec_sshri, scalar1_of_sop1 exec_ssrai, ?smovi, ?shii, ?mtos⟩
  case smov => exact fun c d a => scalarRule_of_sop (exec_smov c d a)
  case smovi => exact fun c d i => scalarRule_of_sop (exec_smovi c d i)
  case shii =>
    intro c d i
    simp only [BitVec.setWidth_eq_extractLsb' (show 32 ≤ 64 by decide)]
    exact scalarRule_of_sop (exec_shii c d i)
  case mtos => exact fun c d a => scalarRule_of_sop (exec_mtos c d a)

theorem scalar2_scmp (p : Pred) : Scalar2 (fun c d a b => .scmp c d a b p) fun x y => if predHolds p x y then 1 else 0 :=
  scalar2_of_sop2 fun c d a b => exec_scmp c d a b p

theorem scalarRule_scmpi (c : Ctl) (d a : SIdx) (p : Pred) (n : BitVec 28) :
    ScalarRule [(a, luA c)] d (.scmpi c d a p n) fun w => if predHolds p (w.rdS a) (n.signExtend 64) then 1 else 0 :=
  scalarRule_of_sop (exec_scmpi c d a p n)

theorem scalarCompare : ScalarCompare :=
  ⟨fun c d a b p s h => ⟨_, scalar2_scmp p c d a b s h, predHolds_ite p _ _⟩,
    fun c d a p n s h => ⟨_, scalarRule_scmpi c d a p n s h, predHolds_ite p _ _⟩⟩

theorem scalarRule_sclz (c : Ctl) (d a : SIdx) :
    ScalarRule [(a, luA c)] d (.sclz c d a) fun w => BitVec.ofNat 64 (leadZeros (w.rdS a)) :=
  scalarRule_of_sop (exec_sclz c d a)

theorem scalarRule_spopc (c : Ctl) (d a : SIdx) :
    ScalarRule [(a, luA c)] d (.spopc c d a) fun w => BitVec.ofNat 64 (ones (w.rdS a)) :=
  scalarRule_of_sop (exec_spopc c d a)

theorem scalarRule_mcnt (c : Ctl) (d : SIdx) (m : MIdx) :
    ScalarRule [] d (.mcnt c d m) fun w => BitVec.ofNat 64 (ones (w.rdM m &&& allLanes w.W)) :=
  scalarRule_of_sop (exec_mcnt c d m)

theorem scalarRule_mfirst (c : Ctl) (d : SIdx) (m : MIdx) :
    ScalarRule [] d (.mfirst c d m) fun w => BitVec.ofNat 64 (lowest (w.rdM m &&& allLanes w.W)) :=
  scalarRule_of_sop (exec_mfirst c d m)

theorem scalarCounts : ScalarCounts := by
  refine ⟨?sclz, ?spopc, ?mcnt, ?mfirst⟩
  case sclz =>
    intro c d a s h
    exact ⟨_, scalarRule_sclz c d a s h, leadZeros_le _, fun _ => getLsbD_above_leadZeros _, getLsbD_leadZeros _⟩
  case spopc =>
    intro c d a s h
    rw [← ones_eq_countP]
    exact scalarRule_spopc c d a s h
  case mcnt =>
    intro c d m s hW h
    rw [← ones_and_allLanes _ hW]
    exact scalarRule_mcnt c d m s h
  case mfirst =>
    intro c d m s hW h
    exact ⟨_, scalarRule_mfirst c d m s h, lowest_and_allLanes _ hW⟩

theorem scalarRule_sbfx (c : Ctl) (d a : SIdx) (pos len1 : BitVec 6) (sgn : Bool) :
    ScalarRule [(a, luA c)] d (.sbfx c d a pos len1 sgn) fun w => bfx (w.rdS a) pos.toNat (len1.toNat + 1) sgn :=
  scalarRule_of_sop (exec_sbfx c d a pos len1 sgn)

theorem scalarRule_sbfi (c : Ctl) (d a : SIdx) (pos len1 : BitVec 6) :
    ScalarRule [(a, luA c), (d, false)] d (.sbfi c d a pos len1) fun w => bfi (w.rdS d) (w.rdS a) pos.toNat (len1.toNat + 1) :=
  scalarRule_of_sop (exec_sbfi c d a pos len1)

theorem bitFields : BitFields :=
  ⟨fun c d a pos len1 sgn s h => ⟨_, scalarRule_sbfx c d a pos len1 sgn s h, fun _ => getLsbD_bfx _ _ _ sgn⟩,
    fun c d a pos len1 s h => ⟨_, scalarRule_sbfi c d a pos len1 s h, fun _ => getLsbD_bfi _ _ _ _⟩⟩

end Sys2Proof.Machine
end

section
open Sys2Proof Sys2Proof.Machine

/-- Settles O1: every one of these instructions is a single scalar result, whose effect is one lemma; what is left of each is its value. -/
theorem scalarInstructions : Obligations.ScalarInstructions :=
  ⟨scalarTwoSources, scalarImmediates, scalarCompare, scalarCounts, bitFields⟩
end

section
/-! SUPPORT. User control registers, time and waits (spec/03 R53, R77, R78; spec/09 R199 to R202, R206): what a read gives, and what a
write changes and keeps. -/
namespace Sys2Proof.Machine
open Sys2Proof.Stmt

/-! ## Scalar results of control instructions -/

/-- A scalar effect without sources keeps every scalar but its destination, and what no rule names. -/
theorem gives_of_scalarsOnly {s t : State} {d : SIdx} {v : Word} (hs : ScalarsOnly s t) (hd : t.w.rdS d = if d = 0 then 0 else v)
    (hkept : ∀ r, r ≠ d → t.w.rdS r = s.w.rdS r) : Gives s t d v := by
  obtain ⟨honly, hw⟩ := hs
  refine ⟨hd, hkept, ?_⟩
  rw [honly, hw]
  exact ⟨rfl, rfl, rfl, rfl, rfl, rfl, rfl⟩

theorem exists_gives_of_sop {i : Instr} {d : SIdx} {f : Warp → Word} {s : State} (hexec : exec i s = sop [] d f s) (h : Ready { sdst := [d] } s) :
    ∃ t, exec i s = .next t ∧ OnlyWarp s t ∧ Gives s t d (f s.w) := by
  obtain ⟨t, ht, hs, hd, hkept, -⟩ := scalarEffect_of_sop hexec h
  exact ⟨t, ht, hs.1, gives_of_scalarsOnly hs hd fun r hr => hkept r hr fun _ hx => absurd hx List.not_mem_nil⟩

/-! ## Reads of control registers (R78, R199) -/

/-- R77: the numbers that are control registers of user programs. -/
def csrNumber (n : Nat) : Prop :=
  n ≤ 8 ∨ 0x10 ≤ n ∧ n ≤ 0x14 ∨ 0x20 ≤ n ∧ n ≤ 0x23 ∨ 0x30 ≤ n ∧ n ≤ 0x33 ∨ 0x40 ≤ n ∧ n ≤ 0x42 ∨ n = 0x50 ∨ n = 0x51 ∨ n = 0x60 ∨
    n = 0x61 ∨ 0x70 ≤ n ∧ n ≤ 0x7F

theorem csrRead_eq_none (s : State) (w : Warp) {n : Nat} (h : ¬ csrNumber n) : csrRead s w n = none := by
  unfold csrNumber at h
  have hbank : ¬ (0x070 ≤ n ∧ n ≤ 0x07F) := by omega
  unfold csrRead
  split
  case h_30 => exact if_neg hbank
  all_goals exact absurd (by decide) h

/-- R199: CSRRD gives the register's value. -/
theorem exec_csrrd_gives {s : State} {c : Ctl} {d : SIdx} {n : BitVec 12} {x : Nat} (hx : csrRead s s.w n.toNat = some x)
    (h : Ready { sdst := [d] } s) : ∃ t, exec (.csrrd c d n) s = .next t ∧ OnlyWarp s t ∧ Gives s t d (BitVec.ofNat 64 x) := by
  have hexec : exec (.csrrd c d n) s = sop [] d (fun _ => BitVec.ofNat 64 x) s := by
    rw [exec_csrrd, execCsrrd, sop]
    simp only [hx]
    rw [gate_ready _ _ _ h, gate_ready _ _ _ h]
    simp only [hx, Option.getD_some]
  exact exists_gives_of_sop hexec h

/-- R77: a number without a register. -/
theorem exec_csrrd_of_none {s : State} (c : Ctl) (d : SIdx) {n : BitVec 12} (hn : csrRead s s.w n.toNat = none) :
    exec (.csrrd c d n) s = .next (takeTrap s { code := 1, sub := 0x0A }) := by
  rw [exec_csrrd, execCsrrd, hn]; rfl

theorem exec_csrwr_of_none {s : State} (c : Ctl) (a : SIdx) {n : BitVec 12} (hn : csrRead s s.w n.toNat = none) :
    exec (.csrwr c n a) s = .next (takeTrap s { code := 1, sub := 0x0A }) := by
  rw [exec_csrwr, execCsrwr, csrSet, hn]; rfl

/-! ## Writes of control registers (R7, R78, R199, R206) -/

/-- What a write of control register n by one scalar does: the frees of its source, then the register's write, and nothing else. -/
def CsrEffect (n : Nat) (src : SIdx × Bool) (i : Instr) (s : State) : Prop :=
  ∃ t r k, exec i s = .next t ∧ OnlyWarp s t ∧
    t.w = (csrWrite { s.w with sregs := r, resS := k } n (s.w.rdS src.1)).advance s.ilen ∧
    ∀ x, KeptS [src] x → ({ s.w with sregs := r, resS := k } : Warp).rdS x = s.w.rdS x

theorem csrEffect_of_gate {i : Instr} {n : Nat} {src : SIdx × Bool} {s : State}
    (hexec : exec i s = gate { ssrc := [src] } s fun s sf => finishS { sf with w := csrWrite sf.w n (s.w.rdS src.1) })
    (h : Ready { ssrc := [src] } s) : CsrEffect n src i s := by
  rw [gate_ready _ _ _ h] at hexec
  obtain ⟨vd, hfinish⟩ := finish_frame { s with w := csrWrite (freeUse s.w { ssrc := [src] }) n (s.w.rdS src.1) } 0 1
  have hfree := Warp.eq_of_sansScalars (sansScalars_freeUse s.w [src] [])
  refine ⟨_, _, _, hexec.trans hfinish, rfl, congrArg (fun w => (csrWrite w n (s.w.rdS src.1)).advance s.ilen) hfree, fun x hx => ?_⟩
  rw [← hfree]
  exact rdS_freeUse s.w { ssrc := [src] } x hx

theorem csrEffect_of_csrSet {i : Instr} {c : Ctl} {n : Nat} {a : SIdx} {s : State} (hexec : exec i s = csrSet c n a s)
    (hn : (csrRead s s.w n).isSome = true) (h : Ready { ssrc := [(a, luA c)] } s) : CsrEffect n (a, luA c) i s := by
  obtain ⟨x, hx⟩ := Option.isSome_iff_exists.mp hn
  refine csrEffect_of_gate (hexec.trans ?_) h
  rw [csrSet, hx]

/-- R206: SETFS is CSRWR FSUCC. -/
theorem csrEffect_setfs {c : Ctl} {a : SIdx} {s : State} (h : Ready { ssrc := [(a, luA c)] } s) :
    CsrEffect 0x011 (a, luA c) (.setfs c a) s := csrEffect_of_gate (exec_setfs c a s) h

/-- A change of the warp that leaves its registers, its paths and its float flags alone. -/
def KeepsRegs (w w' : Warp) : Prop :=
  w'.sregs = w.sregs ∧ w'.vregs = w.vregs ∧ w'.masks = w.masks ∧ w'.p = w.p ∧ w'.fpstat = w.fpstat

/-- A write of any register but FPSTAT is such a change. -/
theorem keepsRegs_csrWrite (w : Warp) {n : Nat} (v : Word) (hn : n ≠ 0x031) : KeepsRegs w (csrWrite w n v) := by
  unfold csrWrite
  split
  case h_5 => exact absurd rfl hn
  case h_3 => split <;> exact ⟨rfl, rfl, rfl, rfl, rfl⟩
  all_goals exact ⟨rfl, rfl, rfl, rfl, rfl⟩

theorem Warp.rdS_congr {w w' : Warp} (h : w'.sregs = w.sregs) (r : SIdx) : w'.rdS r = w.rdS r := by
  unfold Warp.rdS
  rw [h]

/-- R7: what the writes but FPSTAT's have in common: the instruction is past, and every scalar but a last-use source keeps its value. -/
def CsrKeeps (src : SIdx × Bool) (s t : State) : Prop := Passed s t ∧ ∀ r, KeptS [src] r → t.w.rdS r = s.w.rdS r

/-- What the register's write says of the warp, whatever its scalars, holds afterwards. -/
theorem CsrEffect.changes {n : Nat} {src : SIdx × Bool} {i : Instr} {s : State} {P : Warp → Prop} (he : CsrEffect n src i s) (hn : n ≠ 0x031)
    (hP : ∀ r k, P ((csrWrite { s.w with sregs := r, resS := k } n (s.w.rdS src.1)).advance s.ilen)) :
    ∃ t, exec i s = .next t ∧ CsrKeeps src s t ∧ P t.w := by
  obtain ⟨t, r, k, ht, honly, hw, hkept⟩ := he
  obtain ⟨hs, hv, hm, hp, hf⟩ := keepsRegs_csrWrite { s.w with sregs := r, resS := k } (s.w.rdS src.1) hn
  refine ⟨t, ht, ⟨⟨?_, ?_, ?_, ?_, ?_, ?_, ?_⟩, fun x hx => ?_⟩, hw ▸ hP r k⟩
  · rw [hw, Warp.advance_p, Path.step_pc, hp]
  · rw [honly]
  · rw [honly]
  · rw [hw, Warp.advance_vregs, hv]
  · rw [hw, Warp.advance_masks, hm]
  · rw [hw, Warp.advance_p, Path.step_exec, hp]
  · rw [hw, Warp.advance_fpstat, hf]
  · rw [hw, ← hkept x hx]
    exact Warp.rdS_congr hs x

/-- R33: FSUCC is set while the walks of the cycle read the value it had. -/
theorem CsrEffect.fsucc {src : SIdx × Bool} {i : Instr} {s : State} (he : CsrEffect 0x011 src i s) :
    ∃ t, exec i s = .next t ∧ CsrKeeps src s t ∧
      t.w.fsucc = (s.w.rdS src.1).toNat % max 1 s.w.id.nwarps ∧ t.w.walkFs = s.w.walkFs :=
  he.changes (P := fun w => w.fsucc = _ ∧ w.walkFs = _) (by decide) fun _ _ => ⟨rfl, rfl⟩

theorem csrWrite_inboxFull (w : Warp) (v : Word) : (csrWrite w 0x014 v).inboxFull = (w.inboxFull && v.getLsbD 0) := by
  show (if v.getLsbD 0 then w else { w with inboxFull := false, inboxFrom := 0 }).inboxFull = _
  cases v.getLsbD 0
  · exact (Bool.and_false _).symm
  · exact (Bool.and_true _).symm

/-- R31: a write of 1 to FULL leaves the inbox as it is, a write of 0 empties it. -/
theorem CsrEffect.inbox {src : SIdx × Bool} {i : Instr} {s : State} (he : CsrEffect 0x014 src i s) :
    ∃ t, exec i s = .next t ∧ CsrKeeps src s t ∧ t.w.inboxFull = (s.w.inboxFull && (s.w.rdS src.1).getLsbD 0) :=
  he.changes (P := fun w => w.inboxFull = _) (by decide) fun _ _ => csrWrite_inboxFull _ _

/-- R78, R281: INVSTATE takes VALID and the iteration from the source. -/
theorem CsrEffect.invstate {src : SIdx × Bool} {i : Instr} {s : State} (he : CsrEffect 0x042 src i s) :
    ∃ t, exec i s = .next t ∧ CsrKeeps src s t ∧
      t.w.invValid = (s.w.rdS src.1).getLsbD 7 ∧ t.w.invIter = (s.w.rdS src.1).extractLsb' 0 7 :=
  he.changes (P := fun w => w.invValid = _ ∧ w.invIter = _) (by decide) fun _ _ => ⟨rfl, rfl⟩

theorem controlRegisters : ControlRegisters := by
  refine ⟨?reads, ?noRegister, ?writes, ?fpstat⟩
  case reads =>
    intro c d s h e he
    refine exec_csrrd_gives ?_ h
    revert e
    repeat refine List.forall_mem_cons.mpr ⟨rfl, ?_⟩
    exact fun _ hnil => absurd hnil List.not_mem_nil
  case noRegister =>
    intro c d a n s hn
    have hnone := csrRead_eq_none s s.w hn
    exact ⟨exec_csrrd_of_none c d hnone, exec_csrwr_of_none c a hnone⟩
  case writes =>
    intro c a s h v keep
    have heffect (n : BitVec 12) (hn : (csrRead s s.w n.toNat).isSome = true) : CsrEffect n.toNat (a, luA c) (.csrwr c n a) s :=
      csrEffect_of_csrSet (exec_csrwr c n a s) hn h
    refine ⟨?fsucc, ?slipw, ?inbox, ?fpctl, ?ststat, ?voidrd, ?invstate, ?readOnly⟩
    case fsucc =>
      rintro i (rfl | rfl)
      · exact (heffect 0x011 rfl).fsucc
      · exact (csrEffect_setfs h).fsucc
    case slipw =>
      exact (heffect 0x012 rfl).changes (P := fun w => w.slipw = _ ∧ w.fsucc = _) (by decide) fun _ _ => ⟨rfl, rfl⟩
    case inbox =>
      rintro i (rfl | rfl)
      · exact (heffect 0x014 rfl).inbox
      · exact (csrEffect_of_csrSet (exec_inboxClear c a s) rfl h).inbox
    case fpctl =>
      exact (heffect 0x030 rfl).changes (P := fun w => w.rmode = _ ∧ w.trapen = _) (by decide) fun _ _ => ⟨rfl, rfl⟩
    case ststat => exact (heffect 0x032 rfl).changes (P := fun w => w.exh = _) (by decide) fun _ _ => rfl
    case voidrd => exact (heffect 0x033 rfl).changes (P := fun w => w.voidrd = _) (by decide) fun _ _ => rfl
    case invstate =>
      rintro i (rfl | rfl)
      · exact (heffect 0x042 rfl).invstate
      · exact (csrEffect_of_csrSet (exec_invstateAbandon c a s) rfl h).invstate
    case readOnly =>
      intro n hmem
      have hro : (csrRead s s.w n.toNat).isSome = true ∧ n.toNat ≠ 0x031 ∧ ∀ w x, csrWrite w n.toNat x = w := by
        revert n
        repeat refine List.forall_mem_cons.mpr ⟨⟨rfl, by decide, fun _ _ => rfl⟩, ?_⟩
        exact fun _ hnil => absurd hnil List.not_mem_nil
      obtain ⟨hread, hne, hignored⟩ := hro
      refine (heffect n hread).changes (P := fun w => w.ops = _ ∧ w.id = _ ∧ w.baton = _) hne fun r k => ?_
      rw [hignored]
      exact ⟨rfl, rfl, rfl⟩
  case fpstat =>
    intro c a s h
    obtain ⟨t, r, k, ht, honly, hw, -⟩ := csrEffect_of_csrSet (n := 0x031) (exec_csrwr c 0x031 a s) rfl h
    exact ⟨t, ht, by rw [hw]; rfl, by rw [honly], by rw [hw]; rfl⟩

/-! ## Time and waits (R200 to R202) -/

theorem finishS_advances (s : State) : ∃ t, finishS s = .next t ∧ OnlyWarp s t ∧ t.w = s.w.advance s.ilen := by
  obtain ⟨vd, hfinish⟩ := finish_frame s 0 1
  exact ⟨_, hfinish, rfl, rfl⟩

/-- R201: the selected counters are at or below the threshold. -/
theorem waitDone_iff (w : Warp) (m : BitVec 6) (n : Nat) :
    waitDone w m n = true ↔
      ∀ e ∈ [(0, Cls.ld), (1, Cls.st), (2, Cls.tl), (3, Cls.dm), (4, Cls.mx), (5, Cls.cl)], m.getLsbD e.1 = true → w.cnt e.2 ≤ n := by
  rw [waitDone, List.all_eq_true]
  refine forall₂_congr fun e _ => ?_
  cases m.getLsbD e.1 <;> simp

theorem timeAndWaits : TimeAndWaits := by
  refine ⟨?gtime, ?waitc, ?nop⟩
  case gtime =>
    intro c d s h
    have hexec : exec (.gtime c d) s = sop [] d (fun _ => BitVec.ofNat 64 (2 * s.tick)) s := exec_gtime c d s
    exact exists_gives_of_sop hexec h
  case waitc =>
    intro c m n s low
    have hlow : waitDone s.w m n.toNat = true ↔ low := waitDone_iff s.w m n.toNat
    constructor
    · intro h
      rw [exec_waitc, execWaitc, if_pos (hlow.mpr h)]
      exact finishS_advances s
    · intro h
      rw [Waits, exec_waitc, execWaitc, if_neg (mt hlow.mp h)]
      rfl
  case nop =>
    intro c s h
    have hexec : exec (.nop c) s = finishS s := by
      rw [exec_nop, execNop, gate_ready _ _ _ h, freeUse_scalars]
      simp [Warp.refillSs, Warp.freeSs]
    rw [hexec]
    exact finishS_advances s

end Sys2Proof.Machine
end

section
open Sys2Proof Sys2Proof.Machine

/-- Settles O28: reads through the effect of a scalar result, writes through the one effect of a control register's write, whose cases are
the registers; a number without a register has no value to read. -/
theorem controlAndTime : Obligations.ControlAndTime := ⟨controlRegisters, timeAndWaits⟩
end
